-- ==== Sys2Proof/Word.lean ====
section
/-! DEFINITION. The word types of des_core (00_scope.md R9): each is a bit vector of the width the spec fixes, bit 0 the
least significant (R12). -/

namespace Sys2Proof

/-- A 32-bit register value, CMD word or block half (R9, R10). -/
abbrev Word := BitVec 32

/-- One byte of a byte string (R202). -/
abbrev Byte := BitVec 8

/-- A 64-bit block or key (R9). -/
abbrev Block := BitVec 64

/-- A 28-bit key half, C or D (R9). -/
abbrev KeyHalf := BitVec 28

/-- A 48-bit round key or expansion output (R9). -/
abbrev RoundKey := BitVec 48

/-- The 16 round keys RK[0] to RK[15] (R110). -/
abbrev Schedule := Vector RoundKey 16

/-- A byte string of the host, in address order (R1010). -/
abbrev ByteString := List Byte

end Sys2Proof
end

