-- ==== Sys2Proof/Config.lean ====
section
/-! DEFINITION. What the spec leaves OPEN and an implementation or a platform fixes (00_scope.md R10). BASE is not here: the
functions that need it take it as an argument (log 6). -/

namespace Sys2Proof

/-- R206: the bus responses a platform may give to a refused access. -/
inductive BusErrorResponse where
  /-- The host is told that its access failed, and goes on. -/
  | errorResponse
  /-- The host's program is aborted. -/
  | abort
  /-- The access never completes. -/
  | hang
deriving DecidableEq, Repr, Inhabited

/-- BUS_ERROR_RESPONSE (R206, U6): the platform's choice, left open. It has no body, so whatever is proved holds for each of
the three (log 5). -/
opaque Config.busErrorResponse : BusErrorResponse

/-- LATENCY (R10, R1220): the time from a command write to its completion. No rule depends on it and nothing in the model
reads it (log 7). -/
opaque Config.latency : Nat

end Sys2Proof
end

