-- ==== Sys2Proof/Syntax.lean ====
section
/-! DEFINITION. The commands of des_core: one constructor per row of spec/opcode_table.json. Commands have no operand fields
(30_encoding.md R304). -/

namespace Sys2Proof

/-- The three commands (R301). -/
inductive Instr where
  /-- LOAD_KEY (R710). -/
  | loadKey
  /-- ENCRYPT (R910). -/
  | encrypt
  /-- DECRYPT (R911). -/
  | decrypt
deriving DecidableEq, Repr

end Sys2Proof
end

