-- ==== Sys2Proof/WellFormed.lean ====
section
/-! DEFINITION. What is well formed. A command has no operand that could be ill formed (R304), so every Instr is; the checks
are those of the CMD word's format (30_encoding.md R300, R301, R303). -/

namespace Sys2Proof

/-- R304: no immediates and no operand fields, hence nothing to check. -/
def Instr.wf (i : Instr) : Bool :=
  match i with
  | .loadKey => true
  | .encrypt => true
  | .decrypt => true

/-- R300: RSVD, bits 31:4, must be 0. -/
def cmdWordReservedZero (w : Word) : Bool := w.extractLsb' 4 28 == 0#28

/-- R301: OP, bits 3:0, names a command. -/
def cmdWordOpNamed (w : Word) : Bool :=
  w.extractLsb' 0 4 == 1#4 || w.extractLsb' 0 4 == 2#4 || w.extractLsb' 0 4 == 3#4

/-- A CMD word that names a command. -/
def cmdWordWf (w : Word) : Bool := cmdWordReservedZero w && cmdWordOpNamed w

end Sys2Proof
end

