-- ==== Sys2Proof/Decode.lean ====
section
/-! DEFINITION. Decoding and encoding of the CMD word (30_encoding.md R300 to R306). Decoding is total and compares all 32
bits; a word that names no command is rejected by name. -/

namespace Sys2Proof

/-- Why a CMD word names no command (R303). The core records neither the word nor the reason (R1103). -/
inductive IllegalWord where
  /-- OP is 0x0 or 0x4 to 0xF, whatever RSVD is. -/
  | reservedOp
  /-- OP is 0x1 to 0x3 and RSVD is not zero. -/
  | reservedBits
deriving DecidableEq, Repr

/-- R302: decode, with the ILLEGAL result split by R303's two cases. -/
def decode (w : Word) : Except IllegalWord Instr :=
  if w = 0x00000001#32 then .ok .loadKey
  else if w = 0x00000002#32 then .ok .encrypt
  else if w = 0x00000003#32 then .ok .decrypt
  else if cmdWordOpNamed w then .error .reservedBits
  else .error .reservedOp

/-- R301: the CMD word of each command, RSVD ‖ OP. -/
def encode (i : Instr) : Word :=
  match i with
  | .loadKey => 0#28 ++ 0x1#4
  | .encrypt => 0#28 ++ 0x2#4
  | .decrypt => 0#28 ++ 0x3#4

/-- The CMD word whose bits the opcode table numbers: bit 0 is the least significant, and every bit above nbits is 0. The
register takes a 32-bit value, not bytes, so no byte order is involved (R203; log 10). -/
def tableWord (nbits w : Nat) : Word := BitVec.ofNat 32 (w % 2 ^ nbits)

/-- The instruction the decoder reads from a word of the opcode table. -/
def decodeTableWord (nbits w : Nat) : Option Instr := (decode (tableWord nbits w)).toOption

/-- R301, the word 0x00000001: RSVD = 0, OP = 0b0001. -/
theorem decode_word_loadKey : decode 0b00000000000000000000000000000001#32 = .ok .loadKey := rfl

/-- R301, the word 0x00000002: RSVD = 0, OP = 0b0010, OP[3:1] = 0b001 and the direction bit 0. -/
theorem decode_word_encrypt : decode 0b00000000000000000000000000000010#32 = .ok .encrypt := rfl

/-- R301, the word 0x00000003: RSVD = 0, OP = 0b0011, OP[3:1] = 0b001 and the direction bit 1. -/
theorem decode_word_decrypt : decode 0b00000000000000000000000000000011#32 = .ok .decrypt := rfl

end Sys2Proof
end

