-- ==== Sys2Proof/Machine/BitPacking.lean ====
section
/-! DEFINITION. bit_packing_control (40_bit_packing_control.md): which bit of which value is which bit of the algorithm.
Pure functions, no state, no error. -/

namespace Sys2Proof.Machine

/-- R400: FIPS position n of an m-bit value is bit m - n, for 1 ≤ n ≤ m. -/
def fips {m : Nat} (v : BitVec m) (n : Nat) : Bool := v.getLsbD (m - n)

/-- R400: the bit that FIPS position n of an m-bit value is. -/
def lsbOfFips (m n : Nat) : Nat := m - n

/-- R400: the FIPS position that bit i of an m-bit value is. -/
def fipsOfLsb (m i : Nat) : Nat := m - i

/-- R401: x[63:32]. -/
def hi32 (x : Block) : Word := x.extractLsb' 32 32

/-- R401: x[31:0]. -/
def lo32 (x : Block) : Word := x.extractLsb' 0 32

/-- R401: h ‖ l. -/
def join64 (h l : Word) : Block := h ++ l

/-- R401: the half-swap, lo32(x) ‖ hi32(x). -/
def swap64 (x : Block) : Block := join64 (lo32 x) (hi32 x)

/-- R402: y[55:28], which is C of a PC-1 output. -/
def hi28 (y : BitVec 56) : KeyHalf := y.extractLsb' 28 28

/-- R402: y[27:0], which is D of a PC-1 output. -/
def lo28 (y : BitVec 56) : KeyHalf := y.extractLsb' 0 28

/-- R402: c ‖ d. -/
def join56 (c d : KeyHalf) : BitVec 56 := c ++ d

/-- R402: z[47:24]. -/
def hi24 (z : RoundKey) : BitVec 24 := z.extractLsb' 24 24

/-- R402: z[23:0]. -/
def lo24 (z : RoundKey) : BitVec 24 := z.extractLsb' 0 24

/-- R402: h ‖ l. -/
def join48 (h l : BitVec 24) : RoundKey := h ++ l

/-- R404: the big-endian value of a byte string; for 8 bytes, b0 ‖ b1 ‖ … ‖ b7. -/
def bytesToU64 (bs : ByteString) : Block :=
  bs.foldl (fun acc b => (acc <<< 8) ||| b.setWidth 64) 0#64

/-- R404: the eight bytes of a value, most significant first. -/
def u64ToBytes (x : Block) : ByteString :=
  [x.extractLsb' 56 8, x.extractLsb' 48 8, x.extractLsb' 40 8, x.extractLsb' 32 8,
   x.extractLsb' 24 8, x.extractLsb' 16 8, x.extractLsb' 8 8, x.extractLsb' 0 8]

/-- R405: the FIPS key positions of the parity bits. -/
def parityPositions : List Nat := [8, 16, 24, 32, 40, 48, 56, 64]

/-- R408: group_j(X) = X[53 - 6j : 48 - 6j], for 1 ≤ j ≤ 8. -/
def sboxGroup (j : Nat) (x : RoundKey) : BitVec 6 := x.extractLsb' (48 - 6 * j) 6

end Sys2Proof.Machine
end

