-- ==== Sys2Proof/Machine/Permutation.lean ====
section
/-! DEFINITION. permutation_unit (41_permutation_unit.md): the table permutation and the six tables in FIPS form.
The table values are the spec's, which supplies them from general knowledge (PRESUMED there, 93 G6 to G12; log 9). -/

namespace Sys2Proof.Machine

/-- R500: output position i (FIPS numbering) copies input position T[i]; the table is read from its first entry on, so
that the first entry ends as the most significant bit of the result. The result's width is the table's length. -/
def perm {m n : Nat} (table : List Nat) (x : BitVec m) : BitVec n :=
  table.foldl (fun acc p => acc.shiftConcat (fips x p)) 0#n

/-- R510: IP, 64 in, 64 out, FIPS form, row by row. -/
def tableIP : List Nat :=
  [58, 50, 42, 34, 26, 18, 10,  2,
   60, 52, 44, 36, 28, 20, 12,  4,
   62, 54, 46, 38, 30, 22, 14,  6,
   64, 56, 48, 40, 32, 24, 16,  8,
   57, 49, 41, 33, 25, 17,  9,  1,
   59, 51, 43, 35, 27, 19, 11,  3,
   61, 53, 45, 37, 29, 21, 13,  5,
   63, 55, 47, 39, 31, 23, 15,  7]

/-- R520: RIP (the inverse of IP), 64 in, 64 out, FIPS form, row by row. -/
def tableRIP : List Nat :=
  [40,  8, 48, 16, 56, 24, 64, 32,
   39,  7, 47, 15, 55, 23, 63, 31,
   38,  6, 46, 14, 54, 22, 62, 30,
   37,  5, 45, 13, 53, 21, 61, 29,
   36,  4, 44, 12, 52, 20, 60, 28,
   35,  3, 43, 11, 51, 19, 59, 27,
   34,  2, 42, 10, 50, 18, 58, 26,
   33,  1, 41,  9, 49, 17, 57, 25]

/-- R530: E, 32 in, 48 out, FIPS form, row by row. -/
def tableE : List Nat :=
  [32,  1,  2,  3,  4,  5,
    4,  5,  6,  7,  8,  9,
    8,  9, 10, 11, 12, 13,
   12, 13, 14, 15, 16, 17,
   16, 17, 18, 19, 20, 21,
   20, 21, 22, 23, 24, 25,
   24, 25, 26, 27, 28, 29,
   28, 29, 30, 31, 32,  1]

/-- R535: P, 32 in, 32 out, FIPS form, row by row. -/
def tableP : List Nat :=
  [16,  7, 20, 21, 29, 12, 28, 17,
    1, 15, 23, 26,  5, 18, 31, 10,
    2,  8, 24, 14, 32, 27,  3,  9,
   19, 13, 30,  6, 22, 11,  4, 25]

/-- R540: PC-1, 64 in, 56 out, FIPS form, row by row. -/
def tablePC1 : List Nat :=
  [57, 49, 41, 33, 25, 17,  9,  1,
   58, 50, 42, 34, 26, 18, 10,  2,
   59, 51, 43, 35, 27, 19, 11,  3,
   60, 52, 44, 36,
   63, 55, 47, 39, 31, 23, 15,  7,
   62, 54, 46, 38, 30, 22, 14,  6,
   61, 53, 45, 37, 29, 21, 13,  5,
   28, 20, 12,  4]

/-- R550: PC-2, 56 in, 48 out, FIPS form, row by row. -/
def tablePC2 : List Nat :=
  [14, 17, 11, 24,  1,  5,  3, 28,
   15,  6, 21, 10, 23, 19, 12,  4,
   26,  8, 16,  7, 27, 20, 13,  2,
   41, 52, 31, 37, 47, 55, 30, 40,
   51, 45, 33, 48, 44, 49, 39, 56,
   34, 53, 46, 42, 50, 36, 29, 32]

/-- R510: IP(B). -/
def initialPermutation (b : Block) : Block := perm tableIP b

/-- R520: RIP applied to the pre-output. -/
def inverseInitialPermutation (b : Block) : Block := perm tableRIP b

/-- R530: E(R). -/
def expansion (r : Word) : RoundKey := perm tableE r

/-- R535: P(Y), the last step of f (not the block's final permutation: C2). -/
def roundPermutation (y : Word) : Word := perm tableP y

/-- R540: PC-1, whose output is C0 ‖ D0. -/
def permutedChoice1 (k : Block) : BitVec 56 := perm tablePC1 k

/-- R550: PC-2 of Cn ‖ Dn. -/
def permutedChoice2 (cd : BitVec 56) : RoundKey := perm tablePC2 cd

end Sys2Proof.Machine
end

