-- ==== Sys2Proof/Machine/Sbox.lean ====
section
/-! DEFINITION. sbox_substitution (42_sbox_substitution.md): the eight S-boxes, the row and column rule and the
substitution S. The entries are the spec's, which supplies them from general knowledge (PRESUMED there, 93 G13, G14; log 9). -/

namespace Sys2Proof.Machine

/-- R601: SBOX_1, rows 0 to 3, columns 0 to 15. -/
def sbox1 : List (List Nat) :=
  [[14,  4, 13,  1,  2, 15, 11,  8,  3, 10,  6, 12,  5,  9,  0,  7],
   [ 0, 15,  7,  4, 14,  2, 13,  1, 10,  6, 12, 11,  9,  5,  3,  8],
   [ 4,  1, 14,  8, 13,  6,  2, 11, 15, 12,  9,  7,  3, 10,  5,  0],
   [15, 12,  8,  2,  4,  9,  1,  7,  5, 11,  3, 14, 10,  0,  6, 13]]

/-- R602: SBOX_2, rows 0 to 3, columns 0 to 15. -/
def sbox2 : List (List Nat) :=
  [[15,  1,  8, 14,  6, 11,  3,  4,  9,  7,  2, 13, 12,  0,  5, 10],
   [ 3, 13,  4,  7, 15,  2,  8, 14, 12,  0,  1, 10,  6,  9, 11,  5],
   [ 0, 14,  7, 11, 10,  4, 13,  1,  5,  8, 12,  6,  9,  3,  2, 15],
   [13,  8, 10,  1,  3, 15,  4,  2, 11,  6,  7, 12,  0,  5, 14,  9]]

/-- R603: SBOX_3, rows 0 to 3, columns 0 to 15. -/
def sbox3 : List (List Nat) :=
  [[10,  0,  9, 14,  6,  3, 15,  5,  1, 13, 12,  7, 11,  4,  2,  8],
   [13,  7,  0,  9,  3,  4,  6, 10,  2,  8,  5, 14, 12, 11, 15,  1],
   [13,  6,  4,  9,  8, 15,  3,  0, 11,  1,  2, 12,  5, 10, 14,  7],
   [ 1, 10, 13,  0,  6,  9,  8,  7,  4, 15, 14,  3, 11,  5,  2, 12]]

/-- R604: SBOX_4, rows 0 to 3, columns 0 to 15. -/
def sbox4 : List (List Nat) :=
  [[ 7, 13, 14,  3,  0,  6,  9, 10,  1,  2,  8,  5, 11, 12,  4, 15],
   [13,  8, 11,  5,  6, 15,  0,  3,  4,  7,  2, 12,  1, 10, 14,  9],
   [10,  6,  9,  0, 12, 11,  7, 13, 15,  1,  3, 14,  5,  2,  8,  4],
   [ 3, 15,  0,  6, 10,  1, 13,  8,  9,  4,  5, 11, 12,  7,  2, 14]]

/-- R605: SBOX_5, rows 0 to 3, columns 0 to 15. -/
def sbox5 : List (List Nat) :=
  [[ 2, 12,  4,  1,  7, 10, 11,  6,  8,  5,  3, 15, 13,  0, 14,  9],
   [14, 11,  2, 12,  4,  7, 13,  1,  5,  0, 15, 10,  3,  9,  8,  6],
   [ 4,  2,  1, 11, 10, 13,  7,  8, 15,  9, 12,  5,  6,  3,  0, 14],
   [11,  8, 12,  7,  1, 14,  2, 13,  6, 15,  0,  9, 10,  4,  5,  3]]

/-- R606: SBOX_6, rows 0 to 3, columns 0 to 15. -/
def sbox6 : List (List Nat) :=
  [[12,  1, 10, 15,  9,  2,  6,  8,  0, 13,  3,  4, 14,  7,  5, 11],
   [10, 15,  4,  2,  7, 12,  9,  5,  6,  1, 13, 14,  0, 11,  3,  8],
   [ 9, 14, 15,  5,  2,  8, 12,  3,  7,  0,  4, 10,  1, 13, 11,  6],
   [ 4,  3,  2, 12,  9,  5, 15, 10, 11, 14,  1,  7,  6,  0,  8, 13]]

/-- R607: SBOX_7, rows 0 to 3, columns 0 to 15. -/
def sbox7 : List (List Nat) :=
  [[ 4, 11,  2, 14, 15,  0,  8, 13,  3, 12,  9,  7,  5, 10,  6,  1],
   [13,  0, 11,  7,  4,  9,  1, 10, 14,  3,  5, 12,  2, 15,  8,  6],
   [ 1,  4, 11, 13, 12,  3,  7, 14, 10, 15,  6,  8,  0,  5,  9,  2],
   [ 6, 11, 13,  8,  1,  4, 10,  7,  9,  5,  0, 15, 14,  2,  3, 12]]

/-- R608: SBOX_8, rows 0 to 3, columns 0 to 15. -/
def sbox8 : List (List Nat) :=
  [[13,  2,  8,  4,  6, 15, 11,  1, 10,  9,  3, 14,  5,  0, 12,  7],
   [ 1, 15, 13,  8, 10,  3,  7,  4, 12,  5,  6, 11,  0, 14,  9,  2],
   [ 7, 11,  4,  1,  9, 12, 14,  2,  0,  6, 10, 13, 15,  3,  5,  8],
   [ 2,  1, 14,  7,  4, 10,  8, 13, 15, 12,  9,  0,  3,  5,  6, 11]]

/-- SBOX_j for 1 ≤ j ≤ 8 (R601 to R608). -/
def sboxTable (j : Nat) : List (List Nat) :=
  [sbox1, sbox2, sbox3, sbox4, sbox5, sbox6, sbox7, sbox8].getD (j - 1) []

/-- R600: the row is the two outer bits, b[5] ‖ b[0]. -/
def sboxRow (b : BitVec 6) : Nat := (b.extractLsb' 5 1 ++ b.extractLsb' 0 1).toNat

/-- R600: the column is the four inner bits, b[4:1]. -/
def sboxCol (b : BitVec 6) : Nat := (b.extractLsb' 1 4).toNat

/-- R600: one lookup, SBOX[row(b)][col(b)]. -/
def sboxLookup (table : List (List Nat)) (b : BitVec 6) : BitVec 4 :=
  BitVec.ofNat 4 ((table.getD (sboxRow b) []).getD (sboxCol b) 0)

/-- R610: the full substitution, box 1 on the most significant group. -/
def substitute (x : RoundKey) : Word :=
  sboxLookup (sboxTable 1) (sboxGroup 1 x) ++ sboxLookup (sboxTable 2) (sboxGroup 2 x) ++
  sboxLookup (sboxTable 3) (sboxGroup 3 x) ++ sboxLookup (sboxTable 4) (sboxGroup 4 x) ++
  sboxLookup (sboxTable 5) (sboxGroup 5 x) ++ sboxLookup (sboxTable 6) (sboxGroup 6 x) ++
  sboxLookup (sboxTable 7) (sboxGroup 7 x) ++ sboxLookup (sboxTable 8) (sboxGroup 8 x)

/-- R612: FLAT_1[b] = S_1(b). -/
def sboxFlat1 : List Nat :=
  [14,  0,  4, 15, 13,  7,  1,  4,  2, 14, 15,  2, 11, 13,  8,  1,
    3, 10, 10,  6,  6, 12, 12, 11,  5,  9,  9,  5,  0,  3,  7,  8,
    4, 15,  1, 12, 14,  8,  8,  2, 13,  4,  6,  9,  2,  1, 11,  7,
   15,  5, 12, 11,  9,  3,  7, 14,  3, 10, 10,  0,  5,  6,  0, 13]

/-- R612: FLAT_2[b] = S_2(b). -/
def sboxFlat2 : List Nat :=
  [15,  3,  1, 13,  8,  4, 14,  7,  6, 15, 11,  2,  3,  8,  4, 14,
    9, 12,  7,  0,  2,  1, 13, 10, 12,  6,  0,  9,  5, 11, 10,  5,
    0, 13, 14,  8,  7, 10, 11,  1, 10,  3,  4, 15, 13,  4,  1,  2,
    5, 11,  8,  6, 12,  7,  6, 12,  9,  0,  3,  5,  2, 14, 15,  9]

/-- R612: FLAT_3[b] = S_3(b). -/
def sboxFlat3 : List Nat :=
  [10, 13,  0,  7,  9,  0, 14,  9,  6,  3,  3,  4, 15,  6,  5, 10,
    1,  2, 13,  8, 12,  5,  7, 14, 11, 12,  4, 11,  2, 15,  8,  1,
   13,  1,  6, 10,  4, 13,  9,  0,  8,  6, 15,  9,  3,  8,  0,  7,
   11,  4,  1, 15,  2, 14, 12,  3,  5, 11, 10,  5, 14,  2,  7, 12]

/-- R612: FLAT_4[b] = S_4(b). -/
def sboxFlat4 : List Nat :=
  [ 7, 13, 13,  8, 14, 11,  3,  5,  0,  6,  6, 15,  9,  0, 10,  3,
    1,  4,  2,  7,  8,  2,  5, 12, 11,  1, 12, 10,  4, 14, 15,  9,
   10,  3,  6, 15,  9,  0,  0,  6, 12, 10, 11,  1,  7, 13, 13,  8,
   15,  9,  1,  4,  3,  5, 14, 11,  5, 12,  2,  7,  8,  2,  4, 14]

/-- R612: FLAT_5[b] = S_5(b). -/
def sboxFlat5 : List Nat :=
  [ 2, 14, 12, 11,  4,  2,  1, 12,  7,  4, 10,  7, 11, 13,  6,  1,
    8,  5,  5,  0,  3, 15, 15, 10, 13,  3,  0,  9, 14,  8,  9,  6,
    4, 11,  2,  8,  1, 12, 11,  7, 10,  1, 13, 14,  7,  2,  8, 13,
   15,  6,  9, 15, 12,  0,  5,  9,  6, 10,  3,  4,  0,  5, 14,  3]

/-- R612: FLAT_6[b] = S_6(b). -/
def sboxFlat6 : List Nat :=
  [12, 10,  1, 15, 10,  4, 15,  2,  9,  7,  2, 12,  6,  9,  8,  5,
    0,  6, 13,  1,  3, 13,  4, 14, 14,  0,  7, 11,  5,  3, 11,  8,
    9,  4, 14,  3, 15,  2,  5, 12,  2,  9,  8,  5, 12, 15,  3, 10,
    7, 11,  0, 14,  4,  1, 10,  7,  1,  6, 13,  0, 11,  8,  6, 13]

/-- R612: FLAT_7[b] = S_7(b). -/
def sboxFlat7 : List Nat :=
  [ 4, 13, 11,  0,  2, 11, 14,  7, 15,  4,  0,  9,  8,  1, 13, 10,
    3, 14, 12,  3,  9,  5,  7, 12,  5,  2, 10, 15,  6,  8,  1,  6,
    1,  6,  4, 11, 11, 13, 13,  8, 12,  1,  3,  4,  7, 10, 14,  7,
   10,  9, 15,  5,  6,  0,  8, 15,  0, 14,  5,  2,  9,  3,  2, 12]

/-- R612: FLAT_8[b] = S_8(b). -/
def sboxFlat8 : List Nat :=
  [13,  1,  2, 15,  8, 13,  4,  8,  6, 10, 15,  3, 11,  7,  1,  4,
   10, 12,  9,  5,  3,  6, 14, 11,  5,  0,  0, 14, 12,  9,  7,  2,
    7,  2, 11,  1,  4, 14,  1,  7,  9,  4, 12, 10, 14,  8,  2, 13,
    0, 15,  6, 12, 10,  9, 13,  0, 15,  3,  3,  5,  5,  6,  8, 11]

/-- FLAT_j for 1 ≤ j ≤ 8 (R612). -/
def sboxFlat (j : Nat) : List Nat :=
  [sboxFlat1, sboxFlat2, sboxFlat3, sboxFlat4, sboxFlat5, sboxFlat6, sboxFlat7, sboxFlat8].getD (j - 1) []

end Sys2Proof.Machine
end

