-- ==== Sys2Proof/Machine/Feistel.lean ====
section
/-! DEFINITION. feistel_round_unit (44_feistel_round_unit.md): the round function f, one round and its inverse. -/

namespace Sys2Proof.Machine

/-- R800: f(R, K): expansion, key mixing, substitution, permutation. -/
def roundFunction (r : Word) (k : RoundKey) : Word :=
  roundPermutation (substitute (expansion r ^^^ k))

/-- R802: round((L, R), K) = (R, L xor f(R, K)), the same in every round. -/
def feistelRound (lr : Word × Word) (k : RoundKey) : Word × Word :=
  (lr.2, lr.1 ^^^ roundFunction lr.2 k)

/-- R803: unround((L', R'), K) = (R' xor f(L', K), L'). -/
def feistelUnround (lr : Word × Word) (k : RoundKey) : Word × Word :=
  (lr.2 ^^^ roundFunction lr.1 k, lr.1)

end Sys2Proof.Machine
end

