-- ==== Sys2Proof/Machine/BlockTransform.lean ====
section
/-! DEFINITION. The block transform (45_des_core_block_transform.md R900 to R905). -/

namespace Sys2Proof.Machine

/-- R900: the direction, which selects only the order of the round keys (R903). -/
inductive Direction where
  | enc
  | dec
deriving DecidableEq, Repr

/-- R901: RK[0] to RK[15] for encryption, RK[15] to RK[0] for decryption. -/
def keyOrder (d : Direction) (rk : Schedule) : List RoundKey :=
  match d with
  | .enc => rk.toList
  | .dec => rk.toList.reverse

/-- R900: the working pair after a round with each of the keys, in their order. -/
def runRounds (lr : Word × Word) (keys : List RoundKey) : Word × Word := keys.foldl feistelRound lr

/-- R406: (L0, R0), the halves of IP(B). -/
def initialHalves (b : Block) : Word × Word :=
  (hi32 (initialPermutation b), lo32 (initialPermutation b))

/-- R406, R902: the pre-output R16 ‖ L16, one swap of L16 ‖ R16. -/
def preOutput (lr : Word × Word) : Block := swap64 (join64 lr.1 lr.2)

/-- R900: BlockTransform(B, RK, dir). -/
def blockTransform (b : Block) (rk : Schedule) (d : Direction) : Block :=
  inverseInitialPermutation (preOutput (runRounds (initialHalves b) (keyOrder d rk)))

end Sys2Proof.Machine
end

