-- ==== Sys2Proof/Machine/Access.lean ====
section
/-! DEFINITION. The host's side of the register window: registers, transactions and events, as data (10_state.md R101,
30_encoding.md R305, 70_reset_and_hazards.md R1201). What they do is in Machine/HostAccess.lean. -/

namespace Sys2Proof.Machine

/-- The eight interface registers (R101). -/
inductive Reg where
  | keyHi
  | keyLo
  | dinHi
  | dinLo
  | cmd
  | status
  | doutHi
  | doutLo
deriving DecidableEq, Repr

/-- R305: the direction of an access. -/
inductive AccessDir where
  | read
  | write
deriving DecidableEq, Repr

/-- R305: one host access. A read's data is not used; an access that is not 32 bits wide is refused whatever its data
(log 15). -/
structure Transaction where
  /-- Read or write. -/
  dir : AccessDir
  /-- Byte offset from BASE. -/
  off : Nat
  /-- Access width in bits. -/
  size : Nat
  /-- The word written. -/
  data : Word
deriving DecidableEq, Repr

/-- What can happen at the core's boundary between two commands: a host access, or the reset input (R1201). -/
inductive BusEvent where
  | access (t : Transaction)
  | reset
deriving DecidableEq, Repr

/-- What the host receives: the word a read returns (R1001), or the platform's error response to a refused access (R206).
A write returns nothing (R1003). -/
inductive Answer where
  | word (v : Word)
  | busError (off : Nat)
deriving DecidableEq, Repr

end Sys2Proof.Machine
end

