-- ==== Sys2Proof/Machine/State.lean ====
section
/-! DEFINITION. The state of des_core (10_state.md R100), the reasons a step can stop, and the state after reset
(70_reset_and_hazards.md R1200). -/

namespace Sys2Proof.Machine

/-- R100: the architectural state, and nothing else. CMD has no storage (R106) and STATUS is computed (R107). -/
structure CoreState where
  /-- KEY_HI (R102). -/
  keyHi : Word
  /-- KEY_LO (R103). -/
  keyLo : Word
  /-- DIN_HI (R104). -/
  dinHi : Word
  /-- DIN_LO (R105). -/
  dinLo : Word
  /-- DOUT_HI (R108). -/
  doutHi : Word
  /-- DOUT_LO (R109). -/
  doutLo : Word
  /-- RK (R110), absent exactly while KEY_VALID = 0 (R112, R113; log 1). -/
  rk : Option Schedule
  /-- DOUT_VALID (R114). -/
  doutValid : Bool
  /-- ERR (R115). -/
  err : BitVec 4
deriving DecidableEq, Repr

/-- R1200: the core right after reset. -/
def CoreState.reset : CoreState where
  keyHi := 0x00000000#32
  keyLo := 0x00000000#32
  dinHi := 0x00000000#32
  dinLo := 0x00000000#32
  doutHi := 0x00000000#32
  doutLo := 0x00000000#32
  rk := none
  doutValid := false
  err := 0#4

/-- The machine: the core, and what its one host has issued and received (R220). -/
structure State where
  /-- The core (R100). -/
  core : CoreState
  /-- The MODEL's own field: the host's accesses and the platform's resets not yet served, oldest first (log 2). -/
  pending : List BusEvent
  /-- The MODEL's own field: what the host has received, newest first (log 3). -/
  answers : List Answer
deriving DecidableEq, Repr

/-- Why the machine stops. -/
inductive Fault where
  /-- Raised by a step that serves a refused access (R1002) on a platform whose BUS_ERROR_RESPONSE is a hang (R206): the
  host's access at this offset never completes. Safe: the core changed no state and the run stops. -/
  | busHung (off : Nat)
deriving DecidableEq, Repr

/-- Why a step has no successor by refusal. -/
inductive Refusal where
  /-- Raised by an arm of exec whose instruction has no meaning yet. Safe. No arm raises it. -/
  | notModelled (mnemonic : String)
  /-- Raised by a step that serves a refused access (R1002) on a platform whose BUS_ERROR_RESPONSE is an abort (R206): the
  host program is refused at this offset (R1105). Safe: the core changed no state and the run stops. -/
  | busAborted (off : Nat)
deriving DecidableEq, Repr

/-- The machine right after reset: the core as R1200 says, no access issued and none answered (log 2, log 3). -/
def State.reset : State where
  core := CoreState.reset
  pending := []
  answers := []

end Sys2Proof.Machine
end

