-- ==== Sys2Proof/Machine/Ops.lean ====
section
/-! DEFINITION. The named operations over the core's registers and over the host's side of the machine.
There is no trap entry and no trap return (60_exceptions.md R1112, R1113): the whole of what an error does is
`CoreState.recordOutcome`. -/

namespace Sys2Proof.Machine

/-- ERR code 0, OK (R115). -/
def errOk : BitVec 4 := 0#4

/-- ERR code 1, ILLEGAL_CMD (R115). -/
def errIllegalCmd : BitVec 4 := 1#4

/-- ERR code 2, NO_KEY (R115). -/
def errNoKey : BitVec 4 := 2#4

/-- R113: KEY_VALID is whether RK holds a schedule. -/
def CoreState.keyValid (c : CoreState) : Bool := c.rk.isSome

/-- R115, R1112: a command's outcome is recorded in ERR; an error changes nothing else. -/
def CoreState.recordOutcome (c : CoreState) (code : BitVec 4) : CoreState := { c with err := code }

/-- R710: all 16 slots of RK at once, and with them KEY_VALID. -/
def CoreState.installSchedule (c : CoreState) (rk : Schedule) : CoreState := { c with rk := some rk }

/-- R710: DOUT and DOUT_VALID cleared, always together (R109). -/
def CoreState.clearResult (c : CoreState) : CoreState :=
  { c with doutHi := 0#32, doutLo := 0#32, doutValid := false }

/-- R710: the key latches cleared; the key is not retained. -/
def CoreState.clearKeyLatches (c : CoreState) : CoreState := { c with keyHi := 0#32, keyLo := 0#32 }

/-- R910: OUT = DOUT_HI ‖ DOUT_LO written and DOUT_VALID set, always together. -/
def CoreState.putResult (c : CoreState) (out : Block) : CoreState :=
  { c with doutHi := hi32 out, doutLo := lo32 out, doutValid := true }

/-- The machine with another core state, the host's side as it was. -/
def State.withCore (s : State) (c : CoreState) : State := { s with core := c }

/-- The machine after the host received an answer. -/
def State.withAnswer (s : State) (a : Answer) : State := { s with answers := a :: s.answers }

/-- The machine with another list of accesses to serve. -/
def State.withPending (s : State) (es : List BusEvent) : State := { s with pending := es }

end Sys2Proof.Machine
end

