-- ==== Sys2Proof/Machine/Flags.lean ====
section
/-! DEFINITION. The STATUS word (10_state.md R107). The core has no condition codes (R117); STATUS is the only register
made of fields, and it is computed from KEY_VALID, DOUT_VALID and ERR. -/

namespace Sys2Proof.Machine

/-- R107: STATUS = zext_32(ERR ‖ 0b00 ‖ DOUT_VALID ‖ KEY_VALID). -/
def CoreState.statusWord (c : CoreState) : Word :=
  (c.err ++ 0b00#2 ++ BitVec.ofBool c.doutValid ++ BitVec.ofBool c.keyValid).setWidth 32

end Sys2Proof.Machine
end

