-- ==== Sys2Proof/Machine/KeySchedule.lean ====
section
/-! DEFINITION. key_schedule_engine (43_key_schedule_engine.md): the rotation schedule, the rotation and KeySchedule. -/

namespace Sys2Proof.Machine

/-- R700: s_n, 1 for rounds 1, 2, 9 and 16, and 2 for every other round. -/
def shiftAmount (n : Nat) : Nat := if n = 1 ∨ n = 2 ∨ n = 9 ∨ n = 16 then 1 else 2

/-- R701, R14: the left rotation of a 28-bit half by s places. -/
def rotl28 (x : KeyHalf) (s : Nat) : KeyHalf := (x <<< s) ||| (x >>> (28 - s))

/-- R702: (Cn, Dn), each a rotation of (C(n-1), D(n-1)); (C0, D0) are the halves of PC-1's output. -/
def keyHalves (k : Block) : Nat → KeyHalf × KeyHalf
  | 0 => (hi28 (permutedChoice1 k), lo28 (permutedChoice1 k))
  | n + 1 =>
    let cd := keyHalves k n
    (rotl28 cd.1 (shiftAmount (n + 1)), rotl28 cd.2 (shiftAmount (n + 1)))

/-- R703: the round key of round n, PC-2 of Cn ‖ Dn. -/
def roundKeyOfRound (k : Block) (n : Nat) : RoundKey :=
  permutedChoice2 (join56 (keyHalves k n).1 (keyHalves k n).2)

/-- R703: KeySchedule(K); slot i holds the key of round i + 1. -/
def keySchedule (k : Block) : Schedule := Vector.ofFn (fun i : Fin 16 => roundKeyOfRound k (i.val + 1))

/-- R702: t_n = s_1 + … + s_n. -/
def cumulativeShift : Nat → Nat
  | 0 => 0
  | n + 1 => cumulativeShift n + shiftAmount (n + 1)

end Sys2Proof.Machine
end

