-- ==== Sys2Proof/Machine/Operands.lean ====
section
/-! DEFINITION. The operands of the commands (30_encoding.md R304, 40_bit_packing_control.md R403): registers fixed by the
opcode, read at the moment of the CMD write (20_memory.md R209). -/

namespace Sys2Proof.Machine

/-- R304: K = KEY_HI ‖ KEY_LO, the operand of LOAD_KEY. -/
def CoreState.keyOperand (c : CoreState) : Block := join64 c.keyHi c.keyLo

/-- R304: B = DIN_HI ‖ DIN_LO, the operand of ENCRYPT and DECRYPT. -/
def CoreState.blockOperand (c : CoreState) : Block := join64 c.dinHi c.dinLo

/-- R403: OUT = DOUT_HI ‖ DOUT_LO, the result. -/
def CoreState.resultBlock (c : CoreState) : Block := join64 c.doutHi c.doutLo

end Sys2Proof.Machine
end

