-- ==== Sys2Proof/Machine/Commands.lean ====
section
/-! DEFINITION. The three commands and the two outcomes that run none (43 R710; 45 R910 to R915), and their meanings.
A command is one step (10 R131); none of the host's side of the machine changes in it. -/

namespace Sys2Proof.Machine

/-- R710: LOAD_KEY on the core. It always succeeds. -/
def loadKeyEffect (c : CoreState) : CoreState :=
  (((c.installSchedule (keySchedule c.keyOperand)).clearResult).clearKeyLatches).recordOutcome errOk

/-- R910, R911, R912: a cipher command on the core. KEY_VALID is checked before RK is read (R914). -/
def cipherEffect (d : Direction) (c : CoreState) : CoreState :=
  match c.rk with
  | none => c.recordOutcome errNoKey
  | some rk => (c.putResult (blockTransform c.blockOperand rk d)).recordOutcome errOk

/-- R910: ENCRYPT on the core. -/
def encryptEffect (c : CoreState) : CoreState := cipherEffect .enc c

/-- R911: DECRYPT on the core. -/
def decryptEffect (c : CoreState) : CoreState := cipherEffect .dec c

/-- R913: an illegal CMD word sets ERR to ILLEGAL_CMD and changes nothing else. -/
def illegalCmdEffect (c : CoreState) : CoreState := c.recordOutcome errIllegalCmd

/-- R915: the effect of each command on the core. -/
def commandEffect (i : Instr) (c : CoreState) : CoreState :=
  match i with
  | .loadKey => loadKeyEffect c
  | .encrypt => encryptEffect c
  | .decrypt => decryptEffect c

/-- R915: cmdStep, a CMD write as one function; decoding comes first (R914). -/
def cmdStep (c : CoreState) (w : Word) : CoreState :=
  match decode w with
  | .ok i => commandEffect i c
  | .error _ => illegalCmdEffect c

/-- LOAD_KEY (R710). -/
def execLoadKey (s : State) : Host.Outcome State Fault Refusal := .next (s.withCore (loadKeyEffect s.core))

/-- ENCRYPT (R910). -/
def execEncrypt (s : State) : Host.Outcome State Fault Refusal := .next (s.withCore (encryptEffect s.core))

/-- DECRYPT (R911). -/
def execDecrypt (s : State) : Host.Outcome State Fault Refusal := .next (s.withCore (decryptEffect s.core))

end Sys2Proof.Machine
end

