-- ==== Sys2Proof/Machine/HostAccess.lean ====
section
/-! DEFINITION. Host accesses to the register window (46_host_interface.md R1000 to R1003, 20_memory.md R201 to R209). -/

namespace Sys2Proof.Machine

/-- R101: the offset of each register. -/
def Reg.offset (r : Reg) : Nat :=
  match r with
  | .keyHi => 0x00
  | .keyLo => 0x04
  | .dinHi => 0x08
  | .dinLo => 0x0C
  | .cmd => 0x10
  | .status => 0x14
  | .doutHi => 0x18
  | .doutLo => 0x1C

/-- R101: the register at an offset, if the offset is one of the eight. -/
def regAtOffset (off : Nat) : Option Reg :=
  match off with
  | 0x00 => some .keyHi
  | 0x04 => some .keyLo
  | 0x08 => some .dinHi
  | 0x0C => some .dinLo
  | 0x10 => some .cmd
  | 0x14 => some .status
  | 0x18 => some .doutHi
  | 0x1C => some .doutLo
  | _ => none

/-- R1002: an access is admitted when it is 32 bits wide, aligned to 4 bytes and not above 0x1C. -/
def Transaction.admitted (t : Transaction) : Bool :=
  t.size == 32 && t.off % 4 == 0 && decide (t.off ≤ 0x1C)

/-- The register an admitted access reaches; none for an access that is not admitted (R206). -/
def Transaction.target (t : Transaction) : Option Reg :=
  if t.admitted then regAtOffset t.off else none

/-- R1001: what a read of each register returns. A read changes no state (R208). -/
def readRegister (r : Reg) (c : CoreState) : Word :=
  match r with
  | .keyHi => 0x00000000#32
  | .keyLo => 0x00000000#32
  | .dinHi => c.dinHi
  | .dinLo => c.dinLo
  | .cmd => 0x00000000#32
  | .status => c.statusWord
  | .doutHi => c.doutHi
  | .doutLo => c.doutLo

/-- R1000: what a write of each register does. -/
def writeRegister (r : Reg) (v : Word) (c : CoreState) : CoreState :=
  match r with
  | .keyHi => { c with keyHi := v }
  | .keyLo => { c with keyLo := v }
  | .dinHi => { c with dinHi := v }
  | .dinLo => { c with dinLo := v }
  | .cmd => cmdStep c v
  | .status => c
  | .doutHi => c
  | .doutLo => c

/-- R206: a refused access. -/
structure BusError where
  /-- The offset of the access. -/
  off : Nat
deriving DecidableEq, Repr

/-- R1003: the host-access step on the core. -/
def hostStep (c : CoreState) (t : Transaction) : Except BusError (CoreState × Option Word) :=
  match t.target, t.dir with
  | none, _ => .error ⟨t.off⟩
  | some r, .write => .ok (writeRegister r t.data c, none)
  | some r, .read => .ok (c, some (readRegister r c))

/-- R307: the transaction of WR reg, value. -/
def writeAccess (r : Reg) (v : Word) : Transaction := ⟨.write, r.offset, 32, v⟩

/-- R307: the transaction of RD reg. -/
def readAccess (r : Reg) : Transaction := ⟨.read, r.offset, 32, 0#32⟩

/-- R307: the transaction of CMD mnemonic. -/
def commandAccess (i : Instr) : Transaction := writeAccess .cmd (encode i)

/-- R201: the window is the 0x20 bytes from BASE; off = address - BASE. Outside it an access is not addressed to the core
(R206; log 6). -/
def windowOffset (base addr : Nat) : Option Nat :=
  if base ≤ addr ∧ addr < base + 0x20 then some (addr - base) else none

/-- R201: the transaction the core sees for a host access at an address, if it is addressed to the core. -/
def addressedAccess (base : Nat) (dir : AccessDir) (addr size : Nat) (data : Word) : Option Transaction :=
  (windowOffset base addr).map (fun off => ⟨dir, off, size, data⟩)

end Sys2Proof.Machine
end

