-- ==== Sys2Proof/Machine/Serve.lean ====
section
/-! DEFINITION. Serving one event at the core's boundary: a command word, a register access, a refused access, a reset. -/

namespace Sys2Proof.Machine

/-- R914: a word written to CMD: decoding first, then the command; a word that names none gives ILLEGAL_CMD (R913). -/
def runCommand (w : Word) (s : State) : Host.Outcome State Fault Refusal :=
  match decode w with
  | .ok i => exec i s
  | .error _ => .next (s.withCore (illegalCmdEffect s.core))

/-- R206: a refused access changes nothing in the core; what the host gets is the platform's response (log 5). -/
def refuseAccess (response : BusErrorResponse) (off : Nat) (s : State) : Host.Outcome State Fault Refusal :=
  match response with
  | .errorResponse => .next (s.withAnswer (.busError off))
  | .abort => .refused (.busAborted off)
  | .hang => .fault (.busHung off)

/-- R1003, R1111: one host access; admission comes first. -/
def serveAccess (t : Transaction) (s : State) : Host.Outcome State Fault Refusal :=
  match t.target, t.dir with
  | none, _ => refuseAccess Config.busErrorResponse t.off s
  | some .cmd, .write => runCommand t.data s
  | some r, .write => .next (s.withCore (writeRegister r t.data s.core))
  | some r, .read => .next (s.withAnswer (.word (readRegister r s.core)))

/-- One event: a host access, or the reset input, which puts the core in its reset state whatever it held (R1200, R1201;
log 14). -/
def serveEvent (e : BusEvent) (s : State) : Host.Outcome State Fault Refusal :=
  match e with
  | .access t => serveAccess t s
  | .reset => .next (s.withCore CoreState.reset)

end Sys2Proof.Machine
end

