-- ==== Sys2Proof/Machine/Step.lean ====
section
/-! DEFINITION. One step of the machine: the oldest event not yet served is taken and served (20_memory.md R220). -/

namespace Sys2Proof.Machine

/-- The step. With nothing to serve the core keeps its state (60_exceptions.md R1125; log 4). -/
def step (s : State) : Host.Outcome State Fault Refusal :=
  match s.pending with
  | [] => .next s
  | e :: rest => serveEvent e (s.withPending rest)

/-- s with a write of the table's word to CMD as the next access the core serves: the machine fetches nothing, and a command
runs when its word is written (10_state.md R121; log 2). -/
def State.withFetchWord (s : State) (nbits w : Nat) : State :=
  s.withPending (.access (writeAccess .cmd (tableWord nbits w)) :: s.pending)

end Sys2Proof.Machine
end

