-- ==== Sys2Proof/Machine/Facade.lean ====
section
/-! DEFINITION. The cipher façade (46_host_interface.md R1010 to R1016): host software, given as the host's procedure over the
register window. It is no part of the core; each of its accesses is an admitted one (log 12). -/

namespace Sys2Proof.Machine

/-- R1100: the two errors of the façade, raised before any core access (R1015). -/
inductive HostError where
  /-- R1101: the key is not 8 bytes. -/
  | invalidKeyLength
  /-- R1102: the data is not a whole number of 8-byte blocks. -/
  | invalidDataLength
deriving DecidableEq, Repr

/-- R308: WRKEY k ; CMD LOAD_KEY. -/
def loadKeySequence (k : Block) (c : CoreState) : CoreState :=
  writeRegister .cmd (encode .loadKey)
    (writeRegister .keyLo (lo32 k) (writeRegister .keyHi (hi32 k) c))

/-- R1012, R1013: one block: WR DIN_HI ; WR DIN_LO ; CMD ; RD DOUT_HI ; RD DOUT_LO, with no access of another caller between
(R1017). -/
def blockSequence (i : Instr) (b : Block) (c : CoreState) : Block × CoreState :=
  let c' := writeRegister .cmd (encode i)
    (writeRegister .dinLo (lo32 b) (writeRegister .dinHi (hi32 b) c))
  (join64 (readRegister .doutHi c') (readRegister .doutLo c'), c')

/-- R1012: m chunks of 8 bytes in their order, the outputs joined in the same order. -/
def chunkSequence (i : Instr) : Nat → ByteString → CoreState → ByteString × CoreState
  | 0, _, c => ([], c)
  | m + 1, data, c =>
    let one := blockSequence i (bytesToU64 (data.take 8)) c
    let rest := chunkSequence i m (data.drop 8) one.2
    (u64ToBytes one.1 ++ rest.1, rest.2)

/-- R1011: construct(key). -/
def facadeConstruct (key : ByteString) (c : CoreState) : Except HostError CoreState :=
  if key.length ≠ 8 then .error .invalidKeyLength
  else .ok (loadKeySequence (bytesToU64 key) c)

/-- R1012, R1013: encrypt(data) and decrypt(data) differ only in the command. -/
def facadeCipher (i : Instr) (data : ByteString) (c : CoreState) : Except HostError (ByteString × CoreState) :=
  if data.length % 8 ≠ 0 then .error .invalidDataLength
  else if data.length = 0 then .ok ([], c)
  else .ok (chunkSequence i (data.length / 8) data c)

/-- R1012: encrypt(data). -/
def facadeEncrypt (data : ByteString) (c : CoreState) : Except HostError (ByteString × CoreState) :=
  facadeCipher .encrypt data c

/-- R1013: decrypt(data). -/
def facadeDecrypt (data : ByteString) (c : CoreState) : Except HostError (ByteString × CoreState) :=
  facadeCipher .decrypt data c

end Sys2Proof.Machine
end

