-- ==== Sys2Proof/Machine/HostMemory.lean ====
section
/-! DEFINITION. The host's own memory (00_scope.md R15), which only the façade uses and the core never reaches
(20_memory.md R200). It is a parameter of the procedures below, not state of the core (10_state.md R140; log 11). -/

namespace Sys2Proof.Machine

/-- The host's memory: its bytes that are not 0, by strictly rising address. -/
abbrev HostMemory := List Host.Cell

/-- What an unlisted address holds (log 11). -/
def hostMemoryDefault : Byte := 0#8

/-- The canonical form from an address on: strictly rising addresses, none below it, and no default byte listed. -/
def hostMemoryWfFrom : Nat → HostMemory → Bool
  | _, [] => true
  | lo, (a, v) :: rest => decide (lo ≤ a) && v != hostMemoryDefault && hostMemoryWfFrom (a + 1) rest

/-- The canonical form. -/
def hostMemoryWf (m : HostMemory) : Bool := hostMemoryWfFrom 0 m

/-- R15: MemRead(addr, 1). -/
def memRead (m : HostMemory) (addr : Nat) : Byte :=
  match m with
  | [] => hostMemoryDefault
  | (a, v) :: rest => if a = addr then v else memRead rest addr

/-- A cell put before a list, unless its byte is the default. -/
def consCell (addr : Nat) (v : Byte) (m : HostMemory) : HostMemory :=
  if v = hostMemoryDefault then m else (addr, v) :: m

/-- R15: MemWrite(addr, 1, v). -/
def memWrite (m : HostMemory) (addr : Nat) (v : Byte) : HostMemory :=
  match m with
  | [] => consCell addr v []
  | (a, u) :: rest =>
    if a < addr then (a, u) :: memWrite rest addr v
    else if a = addr then consCell addr v rest
    else consCell addr v ((a, u) :: rest)

/-- R15: MemRead(addr, n), as the n bytes in address order. -/
def memReadBytes (m : HostMemory) (addr : Nat) : Nat → ByteString
  | 0 => []
  | n + 1 => memRead m addr :: memReadBytes m (addr + 1) n

/-- R15: MemWrite(addr, n, v), the bytes of v in address order. -/
def memWriteBytes (m : HostMemory) (addr : Nat) : ByteString → HostMemory
  | [] => m
  | b :: bs => memWriteBytes (memWrite m addr b) (addr + 1) bs

/-- R1010, R1011: construct with the key's bytes in host memory. -/
def constructFromMemory (m : HostMemory) (keyAddr keyLen : Nat) (c : CoreState) : Except HostError CoreState :=
  facadeConstruct (memReadBytes m keyAddr keyLen) c

/-- R1010, R1012, R1013: encrypt or decrypt the bytes at one address and leave the result at another; an error writes
nothing (R1015). -/
def cipherInMemory (i : Instr) (m : HostMemory) (src len dst : Nat) (c : CoreState) :
    Except HostError (HostMemory × CoreState) :=
  match facadeCipher i (memReadBytes m src len) c with
  | .error e => .error e
  | .ok out => .ok (memWriteBytes m dst out.1, out.2)

end Sys2Proof.Machine
end

