-- ==== Sys2Proof/Machine/SplitForms.lean ====
section
/-! DEFINITION. The split-half, bit-0 forms of the six tables (41 R511, R522, R531, R536, R541, R551; 40 R410), copied from
the spec's own listings. The FIPS forms of Machine/Permutation.lean govern; these are the same functions (R410). -/

namespace Sys2Proof.Machine

/-- Which half of the input a source bit lies in. -/
inductive Half where
  /-- The high half (HI, R16, KH or C). -/
  | hi
  /-- The low half (LO, L16, KL or D). -/
  | lo
deriving DecidableEq, Repr

/-- A split-half table over two halves: each entry names a half and a bit of it, highest output bit first. -/
def permHalves {w n : Nat} (table : List (Half × Nat)) (hi lo : BitVec w) : BitVec n :=
  table.foldl (fun acc p => acc.shiftConcat ((if p.1 = .hi then hi else lo).getLsbD p.2)) 0#n

/-- A bit-0 table over one value: each entry names a bit, highest output bit first. -/
def permBits {w n : Nat} (table : List Nat) (x : BitVec w) : BitVec n :=
  table.foldl (fun acc p => acc.shiftConcat (x.getLsbD p)) 0#n

/-- R511: IP, split-half form; hi is HI and lo is LO. -/
def splitIP : List (Half × Nat) :=
  [(.lo, 6), (.lo, 14), (.lo, 22), (.lo, 30), (.hi, 6), (.hi, 14), (.hi, 22), (.hi, 30),
   (.lo, 4), (.lo, 12), (.lo, 20), (.lo, 28), (.hi, 4), (.hi, 12), (.hi, 20), (.hi, 28),
   (.lo, 2), (.lo, 10), (.lo, 18), (.lo, 26), (.hi, 2), (.hi, 10), (.hi, 18), (.hi, 26),
   (.lo, 0), (.lo, 8), (.lo, 16), (.lo, 24), (.hi, 0), (.hi, 8), (.hi, 16), (.hi, 24),
   (.lo, 7), (.lo, 15), (.lo, 23), (.lo, 31), (.hi, 7), (.hi, 15), (.hi, 23), (.hi, 31),
   (.lo, 5), (.lo, 13), (.lo, 21), (.lo, 29), (.hi, 5), (.hi, 13), (.hi, 21), (.hi, 29),
   (.lo, 3), (.lo, 11), (.lo, 19), (.lo, 27), (.hi, 3), (.hi, 11), (.hi, 19), (.hi, 27),
   (.lo, 1), (.lo, 9), (.lo, 17), (.lo, 25), (.hi, 1), (.hi, 9), (.hi, 17), (.hi, 25)]

/-- R522: RIP, split-half form; hi is R16 and lo is L16. -/
def splitRIP : List (Half × Nat) :=
  [(.lo, 24), (.hi, 24), (.lo, 16), (.hi, 16), (.lo, 8), (.hi, 8), (.lo, 0), (.hi, 0),
   (.lo, 25), (.hi, 25), (.lo, 17), (.hi, 17), (.lo, 9), (.hi, 9), (.lo, 1), (.hi, 1),
   (.lo, 26), (.hi, 26), (.lo, 18), (.hi, 18), (.lo, 10), (.hi, 10), (.lo, 2), (.hi, 2),
   (.lo, 27), (.hi, 27), (.lo, 19), (.hi, 19), (.lo, 11), (.hi, 11), (.lo, 3), (.hi, 3),
   (.lo, 28), (.hi, 28), (.lo, 20), (.hi, 20), (.lo, 12), (.hi, 12), (.lo, 4), (.hi, 4),
   (.lo, 29), (.hi, 29), (.lo, 21), (.hi, 21), (.lo, 13), (.hi, 13), (.lo, 5), (.hi, 5),
   (.lo, 30), (.hi, 30), (.lo, 22), (.hi, 22), (.lo, 14), (.hi, 14), (.lo, 6), (.hi, 6),
   (.lo, 31), (.hi, 31), (.lo, 23), (.hi, 23), (.lo, 15), (.hi, 15), (.lo, 7), (.hi, 7)]

/-- R541: PC-1, split-half form; hi is KH and lo is KL. -/
def splitPC1 : List (Half × Nat) :=
  [(.lo, 7), (.lo, 15), (.lo, 23), (.lo, 31), (.hi, 7), (.hi, 15), (.hi, 23), (.hi, 31),
   (.lo, 6), (.lo, 14), (.lo, 22), (.lo, 30), (.hi, 6), (.hi, 14), (.hi, 22), (.hi, 30),
   (.lo, 5), (.lo, 13), (.lo, 21), (.lo, 29), (.hi, 5), (.hi, 13), (.hi, 21), (.hi, 29),
   (.lo, 4), (.lo, 12), (.lo, 20), (.lo, 28),
   (.lo, 1), (.lo, 9), (.lo, 17), (.lo, 25), (.hi, 1), (.hi, 9), (.hi, 17), (.hi, 25),
   (.lo, 2), (.lo, 10), (.lo, 18), (.lo, 26), (.hi, 2), (.hi, 10), (.hi, 18), (.hi, 26),
   (.lo, 3), (.lo, 11), (.lo, 19), (.lo, 27), (.hi, 3), (.hi, 11), (.hi, 19), (.hi, 27),
   (.hi, 4), (.hi, 12), (.hi, 20), (.hi, 28)]

/-- R551: PC-2, split-half form; hi is C and lo is D. -/
def splitPC2 : List (Half × Nat) :=
  [(.hi, 14), (.hi, 11), (.hi, 17), (.hi, 4), (.hi, 27), (.hi, 23), (.hi, 25), (.hi, 0),
   (.hi, 13), (.hi, 22), (.hi, 7), (.hi, 18), (.hi, 5), (.hi, 9), (.hi, 16), (.hi, 24),
   (.hi, 2), (.hi, 20), (.hi, 12), (.hi, 21), (.hi, 1), (.hi, 8), (.hi, 15), (.hi, 26),
   (.lo, 15), (.lo, 4), (.lo, 25), (.lo, 19), (.lo, 9), (.lo, 1), (.lo, 26), (.lo, 16),
   (.lo, 5), (.lo, 11), (.lo, 23), (.lo, 8), (.lo, 12), (.lo, 7), (.lo, 17), (.lo, 0),
   (.lo, 22), (.lo, 3), (.lo, 10), (.lo, 14), (.lo, 6), (.lo, 20), (.lo, 27), (.lo, 24)]

/-- R531: E, bit-0 form. -/
def splitE : List Nat :=
  [0, 31, 30, 29, 28, 27, 28, 27,
   26, 25, 24, 23, 24, 23, 22, 21,
   20, 19, 20, 19, 18, 17, 16, 15,
   16, 15, 14, 13, 12, 11, 12, 11,
   10, 9, 8, 7, 8, 7, 6, 5,
   4, 3, 4, 3, 2, 1, 0, 31]

/-- R536: P, bit-0 form. -/
def splitP : List Nat :=
  [16, 25, 12, 11, 3, 20, 4, 15,
   31, 17, 9, 6, 27, 14, 1, 22,
   30, 24, 8, 18, 0, 5, 29, 23,
   13, 19, 2, 26, 10, 21, 28, 7]

end Sys2Proof.Machine
end

