-- ==== Sys2Proof/Safety.lean ====
section
/-! DEFINITION. What counts as a safe run and as a legal core state, in the terms the claims use. -/

namespace Sys2Proof.Safety

open Sys2Proof.Machine

/-- The step went on: no fault and no refusal. -/
def completes (o : Host.Outcome State Fault Refusal) : Prop := ∃ t, o = .next t

/-- R116, U3: ERR is one of the three codes that are ever produced. -/
def errLegal (c : CoreState) : Prop := c.err = errOk ∨ c.err = errIllegalCmd ∨ c.err = errNoKey

/-- R110, R113: whatever schedule RK holds, KeySchedule built it from some key. -/
def scheduleLegal (c : CoreState) : Prop := ∀ rk, c.rk = some rk → ∃ k, rk = keySchedule k

/-- R114: while DOUT_VALID is 1 there is a schedule that the result in DOUT was computed under. Which block and direction
the result is of is said by `Ledger.describes`, since one core state alone cannot say it. -/
def resultLegal (c : CoreState) : Prop := c.doutValid = true → c.keyValid = true

/-- R108, R710, R1200: while DOUT_VALID is 0, DOUT is clear. -/
def resultClear (c : CoreState) : Prop := c.doutValid = false → c.doutHi = 0#32 ∧ c.doutLo = 0#32

/-- The invariant of the core. -/
structure CoreInv (c : CoreState) : Prop where
  err : errLegal c
  schedule : scheduleLegal c
  result : resultLegal c
  clear : resultClear c

/-- The invariant of the machine: it says nothing of what the host has issued or received. -/
def MachineInv (s : State) : Prop := CoreInv s.core

/-- The event is an admitted write of a word to a register (R1000, R1002). -/
def writesRegister (e : BusEvent) (r : Reg) (v : Word) : Prop :=
  ∃ t, e = .access t ∧ t.dir = .write ∧ t.target = some r ∧ t.data = v

/-- The event the machine serves next is an admitted write of a word to a register. -/
def nextWrites (s : State) (r : Reg) (v : Word) : Prop := ∃ e, s.pending.head? = some e ∧ writesRegister e r v

/-- The event the machine serves next is the reset input (R1201). -/
def nextResets (s : State) : Prop := s.pending.head? = some .reset

/-- R113: whether a LOAD_KEY was served after the last reset in a list of events, given whether one had been before it. -/
def keyLoadedAfter : List BusEvent → Bool → Bool
  | [], b => b
  | .reset :: es, _ => keyLoadedAfter es false
  | .access t :: es, b =>
    keyLoadedAfter es (b || (t.dir == .write && t.target == some .cmd && t.data == encode .loadKey))

/-- What the events served so far say the core holds, kept without computing a schedule or a transform: the words the host
left in the operand registers, the key of the last LOAD_KEY since reset (R711), and the direction and block of the last
cipher command that succeeded since that LOAD_KEY (R114). -/
structure Ledger where
  keyHi : Word
  keyLo : Word
  dinHi : Word
  dinLo : Word
  key : Option Block
  last : Option (Direction × Block)
deriving DecidableEq, Repr

/-- R1200: after reset no key was loaded and no result computed. -/
def Ledger.reset : Ledger := ⟨0#32, 0#32, 0#32, 0#32, none, none⟩

/-- R710: LOAD_KEY takes the key latches as the key, clears them, and ends what was computed under the key before. -/
def Ledger.loadKey (g : Ledger) : Ledger := ⟨0#32, 0#32, g.dinHi, g.dinLo, some (g.keyHi ++ g.keyLo), none⟩

/-- R910, R911, R912: a cipher command succeeds when a key was loaded; its block is DIN at that moment. -/
def Ledger.cipher (g : Ledger) (d : Direction) : Ledger :=
  if g.key.isSome then { g with last := some (d, g.dinHi ++ g.dinLo) } else g

/-- R1000: an admitted write. -/
def Ledger.write (g : Ledger) (r : Reg) (v : Word) : Ledger :=
  match r with
  | .keyHi => { g with keyHi := v }
  | .keyLo => { g with keyLo := v }
  | .dinHi => { g with dinHi := v }
  | .dinLo => { g with dinLo := v }
  | .cmd =>
    if v = 0x00000001#32 then g.loadKey
    else if v = 0x00000002#32 then g.cipher .enc
    else if v = 0x00000003#32 then g.cipher .dec
    else g
  | .status => g
  | .doutHi => g
  | .doutLo => g

/-- One event: a reset, an admitted write, or an access that changes nothing in the core. -/
def Ledger.serve (g : Ledger) (e : BusEvent) : Ledger :=
  match e with
  | .reset => Ledger.reset
  | .access t =>
    match t.target, t.dir with
    | some r, .write => g.write r t.data
    | some _, .read => g
    | none, _ => g

/-- The ledger after the event the machine serves next, if there is one. -/
def Ledger.serveNext (g : Ledger) (s : State) : Ledger :=
  match s.pending.head? with
  | none => g
  | some e => g.serve e

/-- The core holds what the ledger says: the operand registers; in RK the schedule of the key it names (R110, R113); and, with
DOUT_VALID, in DOUT the transform of the block it names under the schedule now in RK, or no result (R114). -/
structure Ledger.describes (g : Ledger) (c : CoreState) : Prop where
  keyHi : c.keyHi = g.keyHi
  keyLo : c.keyLo = g.keyLo
  dinHi : c.dinHi = g.dinHi
  dinLo : c.dinLo = g.dinLo
  schedule : c.rk = g.key.map keySchedule
  valid : c.doutValid = g.last.isSome
  result : ∀ d b, g.last = some (d, b) → ∃ rk, c.rk = some rk ∧ c.doutHi ++ c.doutLo = blockTransform b rk d
  clear : g.last = none → c.doutHi = 0#32 ∧ c.doutLo = 0#32

/-- The accesses of a list, as events for the machine to serve. -/
def accessEvents (ts : List Transaction) : List BusEvent := ts.map BusEvent.access

/-- R1003, R220: the core and the answers (newest first) after the accesses of a list, one hostStep after the other. -/
def hostSteps : List Transaction → CoreState × List Answer → Except BusError (CoreState × List Answer)
  | [], acc => .ok acc
  | t :: ts, (c, as) =>
    match hostStep c t with
    | .ok (c', some v) => hostSteps ts (c', .word v :: as)
    | .ok (c', none) => hostSteps ts (c', as)
    | .error e => .error e

/-- What the host can tell apart: everything a read can return, DIN, STATUS and DOUT (R1001). -/
def hostView (c : CoreState) : Word × Word × Word × Word × Word :=
  (c.dinHi, c.dinLo, c.statusWord, c.doutHi, c.doutLo)

/-- The host can tell nothing apart between two machines: neither what it may read, nor what it asked, nor what it got. -/
def hostCannotTell (s t : State) : Prop :=
  hostView s.core = hostView t.core ∧ s.pending = t.pending ∧ s.answers = t.answers

end Sys2Proof.Safety
end

