-- ==== Sys2Proof/Certificates/Slice0/Obligations.lean ====
section
/-! DEFINITION. The statements for the provers, in the order of the spec's files: what the machine does at reset, on each
event, and what its units compute. Nothing here is about a program. -/

open Sys2Proof Sys2Proof.Machine Sys2Proof.Safety

/-! ## Reset -/

/-- R1200: the values of every register at reset; STATUS reads 0. -/
def Obligations.ResetValuesOfEveryRegister : Prop :=
  State.reset.core.keyHi = 0#32 ∧ State.reset.core.keyLo = 0#32 ∧
  State.reset.core.dinHi = 0#32 ∧ State.reset.core.dinLo = 0#32 ∧
  State.reset.core.doutHi = 0#32 ∧ State.reset.core.doutLo = 0#32 ∧
  State.reset.core.keyValid = false ∧ State.reset.core.doutValid = false ∧
  State.reset.core.err = 0#4 ∧ State.reset.core.rk = none ∧
  State.reset.core.statusWord = 0x00000000#32

/-- R1200: the reset input, served between two accesses (R1201), puts the core in the state of R1200 whatever it held before;
STATUS reads 0 after it. -/
def Obligations.ResetInputWhateverTheCoreHeld : Prop :=
  ∀ (s : State) (rest : List BusEvent), s.pending = .reset :: rest →
    ∃ t, step s = .next t ∧
      t.core = { keyHi := 0#32, keyLo := 0#32, dinHi := 0#32, dinLo := 0#32, doutHi := 0#32, doutLo := 0#32,
                 rk := none, doutValid := false, err := 0#4 } ∧
      t.core.statusWord = 0x00000000#32

/-- R1125: the core only responds to accesses: with nothing to serve, all state persists. (Log 4.) -/
def Obligations.IdleCoreKeepsItsState : Prop := ∀ s : State, s.pending = [] → step s = .next s

/-! ## Decoding -/

/-- R302: decoding of every word. -/
def Obligations.DecodeReadsTheCommandTable : Prop :=
  ∀ w : Word,
    (w = 0x00000001#32 → decode w = .ok .loadKey) ∧
    (w = 0x00000002#32 → decode w = .ok .encrypt) ∧
    (w = 0x00000003#32 → decode w = .ok .decrypt) ∧
    (w ≠ 0x00000001#32 → w ≠ 0x00000002#32 → w ≠ 0x00000003#32 → ∃ e, decode w = .error e)

/-- R301, R302, R306: every command decodes from its word, and from no other. -/
def Obligations.CommandAndWordDetermineEachOther : Prop :=
  (∀ i : Instr, decode (encode i) = .ok i) ∧ (∀ (w : Word) (i : Instr), decode w = .ok i → w = encode i)

/-- R303, R913: a word is illegal exactly when OP = 0x0 or 0x4 to 0xF with any RSVD, or OP = 0x1 to 0x3 with RSVD not zero;
written to CMD it sets ERR to 1 and changes no other state of the core. -/
def Obligations.IllegalWordsOnlySetErr : Prop :=
  ∀ w : Word,
    ((∃ e, decode w = .error e) ↔ w ≠ 0x00000001#32 ∧ w ≠ 0x00000002#32 ∧ w ≠ 0x00000003#32) ∧
    ((∃ e, decode w = .error e) ↔
      ((w.extractLsb' 0 4 = 0#4 ∨ 4 ≤ (w.extractLsb' 0 4).toNat) ∨
       ((w.extractLsb' 0 4 = 1#4 ∨ w.extractLsb' 0 4 = 2#4 ∨ w.extractLsb' 0 4 = 3#4) ∧ w.extractLsb' 4 28 ≠ 0#28))) ∧
    ((∃ e, decode w = .error e) →
      ∀ c : CoreState, hostStep c ⟨.write, 0x10, 32, w⟩ = .ok ({ c with err := 1#4 }, none))

/-- R301, R303: a few words, bit by bit. R302 gives every illegal word one result; which of the model's two names an illegal
word is rejected by is the model's choice (DEDUCED, log 10). -/
def Obligations.SampleWordsDecode : Prop :=
  decode 0b00000000000000000000000000000001#32 = .ok .loadKey ∧
  decode 0b00000000000000000000000000000010#32 = .ok .encrypt ∧
  decode 0b00000000000000000000000000000011#32 = .ok .decrypt ∧
  decode 0b00000000000000000000000000000000#32 = .error .reservedOp ∧
  decode 0b00000000000000000000000000000100#32 = .error .reservedOp ∧
  decode 0b00000000000000000000000000010010#32 = .error .reservedBits ∧
  decode 0b10000000000000000000000000000001#32 = .error .reservedBits

/-! ## Commands -/

/-- R915: the command step, for every core state and every word, in the spec's own record updates. -/
def Obligations.CmdStepHasTheSpecsFourCases : Prop :=
  ∀ (c : CoreState) (w : Word),
    (w = 0x00000001#32 →
      cmdStep c w = { c with
        rk := some (keySchedule (c.keyHi ++ c.keyLo)), doutHi := 0#32, doutLo := 0#32, doutValid := false,
        keyHi := 0#32, keyLo := 0#32, err := 0#4 }) ∧
    (∀ d : Direction, (w = 0x00000002#32 ∧ d = .enc) ∨ (w = 0x00000003#32 ∧ d = .dec) →
      (c.rk = none → cmdStep c w = { c with err := 2#4 }) ∧
      (∀ rk, c.rk = some rk →
        cmdStep c w = { c with
          doutHi := (blockTransform (c.dinHi ++ c.dinLo) rk d).extractLsb' 32 32,
          doutLo := (blockTransform (c.dinHi ++ c.dinLo) rk d).extractLsb' 0 32,
          doutValid := true, err := 0#4 })) ∧
    (w ≠ 0x00000001#32 → w ≠ 0x00000002#32 → w ≠ 0x00000003#32 → cmdStep c w = { c with err := 1#4 })

/-- R710: LOAD_KEY completes in every state: the pseudocode's writes, and no other change. -/
def Obligations.LoadKeyCompletesInEveryState : Prop :=
  ∀ s : State, exec .loadKey s = .next { s with
    core := { s.core with
      rk := some (keySchedule (s.core.keyHi ++ s.core.keyLo)),
      doutHi := 0#32, doutLo := 0#32, doutValid := false, keyHi := 0#32, keyLo := 0#32, err := 0#4 } }

/-- R910: ENCRYPT completes whenever KEY_VALID = 1, with OUT from the block in DIN, and no other change. -/
def Obligations.EncryptCompletesWithAKey : Prop :=
  ∀ (s : State) (rk : Schedule), s.core.rk = some rk →
    exec .encrypt s = .next { s with
      core := { s.core with
        doutHi := (blockTransform (s.core.dinHi ++ s.core.dinLo) rk .enc).extractLsb' 32 32,
        doutLo := (blockTransform (s.core.dinHi ++ s.core.dinLo) rk .enc).extractLsb' 0 32,
        doutValid := true, err := 0#4 } }

/-- R911: DECRYPT completes whenever KEY_VALID = 1, with OUT from the block in DIN, and no other change. -/
def Obligations.DecryptCompletesWithAKey : Prop :=
  ∀ (s : State) (rk : Schedule), s.core.rk = some rk →
    exec .decrypt s = .next { s with
      core := { s.core with
        doutHi := (blockTransform (s.core.dinHi ++ s.core.dinLo) rk .dec).extractLsb' 32 32,
        doutLo := (blockTransform (s.core.dinHi ++ s.core.dinLo) rk .dec).extractLsb' 0 32,
        doutValid := true, err := 0#4 } }

/-- R912: a cipher command while KEY_VALID = 0 sets ERR to NO_KEY and changes nothing else. -/
def Obligations.CipherWithoutKeyRecordsNoKey : Prop :=
  ∀ (s : State) (i : Instr), i = .encrypt ∨ i = .decrypt → s.core.keyValid = false →
    exec i s = .next { s with core := { s.core with err := 2#4 } }

/-- What each command leaves unchanged: the host's side and DIN always; for the cipher commands also the key latches and RK;
for a cipher command without a key everything but ERR. -/
def Obligations.CommandFrames : Prop :=
  ∀ (i : Instr) (s t : State), exec i s = .next t →
    t.pending = s.pending ∧ t.answers = s.answers ∧ t.core.dinHi = s.core.dinHi ∧ t.core.dinLo = s.core.dinLo ∧
    (i = .encrypt ∨ i = .decrypt →
      t.core.keyHi = s.core.keyHi ∧ t.core.keyLo = s.core.keyLo ∧ t.core.rk = s.core.rk ∧
      (s.core.keyValid = false →
        t.core.doutHi = s.core.doutHi ∧ t.core.doutLo = s.core.doutLo ∧ t.core.doutValid = s.core.doutValid))

/-- R121, R1000: when the next event is a write to CMD of a word that decodes to a command, the step is exec of that command,
with the event taken off and nothing else around it; and so for a word of the opcode table placed by withFetchWord. -/
def Obligations.StepRunsTheDecodedCommand : Prop :=
  (∀ (s : State) (w : Word) (i : Instr) (rest : List BusEvent),
    s.pending = .access ⟨.write, 0x10, 32, w⟩ :: rest → decode w = .ok i →
      step s = exec i { s with pending := rest }) ∧
  (∀ (s : State) (nbits w : Nat) (i : Instr), decodeTableWord nbits w = some i →
    step (s.withFetchWord nbits w) = exec i s)

/-- R910, R911, R905: the same cipher command again, with no write between, changes nothing. -/
def Obligations.RepeatedCipherCommandChangesNothing : Prop :=
  ∀ (s t : State) (i : Instr), i = .encrypt ∨ i = .decrypt → exec i s = .next t → exec i t = .next t

/-- R710's corner case, R1213: LOAD_KEY again with no key write between loads K = 0, whose round keys are all zero. -/
def Obligations.SecondLoadKeyLoadsTheZeroKey : Prop :=
  ∀ s t u : State, exec .loadKey s = .next t → exec .loadKey t = .next u →
    u.core.rk = some (Vector.replicate 16 0x000000000000#48) ∧ u.core.keyValid = true ∧ u.core.err = 0#4

/-! ## Host accesses -/

/-- R1000: what an admitted write at each of the eight offsets does, returning nothing; a write that is not admitted is a
BusError; and only a CMD write changes STATUS. -/
def Obligations.HostWritesFollowTheTable : Prop :=
  ∀ (c : CoreState) (off : Nat) (v : Word),
    (∀ size, ¬ (size = 32 ∧ off % 4 = 0 ∧ off ≤ 0x1C) → hostStep c ⟨.write, off, size, v⟩ = .error ⟨off⟩) ∧
    (∀ c' r, off ≠ 0x10 → hostStep c ⟨.write, off, 32, v⟩ = .ok (c', r) → c'.statusWord = c.statusWord) ∧
    (off = 0x00 → hostStep c ⟨.write, off, 32, v⟩ = .ok ({ c with keyHi := v }, none)) ∧
    (off = 0x04 → hostStep c ⟨.write, off, 32, v⟩ = .ok ({ c with keyLo := v }, none)) ∧
    (off = 0x08 → hostStep c ⟨.write, off, 32, v⟩ = .ok ({ c with dinHi := v }, none)) ∧
    (off = 0x0C → hostStep c ⟨.write, off, 32, v⟩ = .ok ({ c with dinLo := v }, none)) ∧
    (off = 0x10 → hostStep c ⟨.write, off, 32, v⟩ = .ok (cmdStep c v, none)) ∧
    (off = 0x14 ∨ off = 0x18 ∨ off = 0x1C → hostStep c ⟨.write, off, 32, v⟩ = .ok (c, none))

/-- R1001: what an admitted read at each of the eight offsets returns, whatever word the access carries; a read that is not
admitted is a BusError; no read changes the core. -/
def Obligations.HostReadsFollowTheTable : Prop :=
  ∀ (c : CoreState) (off : Nat) (v : Word),
    (∀ size, ¬ (size = 32 ∧ off % 4 = 0 ∧ off ≤ 0x1C) → hostStep c ⟨.read, off, size, v⟩ = .error ⟨off⟩) ∧
    (off = 0x00 ∨ off = 0x04 ∨ off = 0x10 → hostStep c ⟨.read, off, 32, v⟩ = .ok (c, some 0x00000000#32)) ∧
    (off = 0x08 → hostStep c ⟨.read, off, 32, v⟩ = .ok (c, some c.dinHi)) ∧
    (off = 0x0C → hostStep c ⟨.read, off, 32, v⟩ = .ok (c, some c.dinLo)) ∧
    (off = 0x14 → hostStep c ⟨.read, off, 32, v⟩ =
      .ok (c, some ((c.err ++ 0b00#2 ++ BitVec.ofBool c.doutValid ++ BitVec.ofBool c.rk.isSome).setWidth 32))) ∧
    (off = 0x18 → hostStep c ⟨.read, off, 32, v⟩ = .ok (c, some c.doutHi)) ∧
    (off = 0x1C → hostStep c ⟨.read, off, 32, v⟩ = .ok (c, some c.doutLo))

/-- R1003 in the machine: a step that serves an admitted access takes it off the pending ones, gives the core hostStep's state
and the host the word a read returns. How the host's side is held is the model's (log 2, 3). -/
def Obligations.StepServesOneHostStep : Prop :=
  ∀ (s : State) (t : Transaction) (rest : List BusEvent) (c : CoreState) (r : Option Word),
    s.pending = .access t :: rest → hostStep s.core t = .ok (c, r) →
      step s = .next { core := c, pending := rest, answers := (r.map Answer.word).toList ++ s.answers }

/-- R1002: an access is admitted exactly when it is 32 bits wide, aligned to 4 bytes and not above 0x1C; any other raises
BusError of its offset, with no state after it. -/
def Obligations.AdmissionDecidesBusError : Prop :=
  ∀ (c : CoreState) (t : Transaction),
    (t.size = 32 ∧ t.off % 4 = 0 ∧ t.off ≤ 0x1C → ∃ r, hostStep c t = .ok r) ∧
    (¬ (t.size = 32 ∧ t.off % 4 = 0 ∧ t.off ≤ 0x1C) → hostStep c t = .error ⟨t.off⟩)

/-- R206, R1105: whichever response the platform gives, a refused access changes no core state: the run goes on with an error
response, or is aborted, or hangs. What each response does to the run is the model's choice (log 5). -/
def Obligations.RefusedAccessNeverTouchesTheCore : Prop :=
  ∀ (s : State) (t : Transaction) (rest : List BusEvent), s.pending = .access t :: rest →
    ¬ (t.size = 32 ∧ t.off % 4 = 0 ∧ t.off ≤ 0x1C) →
      step s = .next { core := s.core, pending := rest, answers := .busError t.off :: s.answers } ∨
      step s = .refused (.busAborted t.off) ∨
      step s = .fault (.busHung t.off)

/-- R208: two reads of a register in a row return the same word and change no core state. -/
def Obligations.ReadsAreIdempotent : Prop :=
  ∀ (s : State) (a : Transaction) (r : Reg) (rest : List BusEvent),
    s.pending = .access a :: .access a :: rest → a.dir = .read → a.target = some r →
      ∃ v, Host.Core.run Sys2Proof.core 2 s =
        .next ({ core := s.core, pending := rest, answers := .word v :: .word v :: s.answers } : State)

/-- R201: the 0x20 bytes from BASE are the window, for every BASE; an access at an address is admitted exactly when it is 32
bits wide and at one of the eight registers. (Log 6.) -/
def Obligations.WindowAtEveryBase : Prop :=
  ∀ base : Nat,
    (∀ off, off < 0x20 → windowOffset base (base + off) = some off) ∧
    (∀ addr, addr < base ∨ base + 0x20 ≤ addr → windowOffset base addr = none) ∧
    (∀ (dir : AccessDir) (addr size : Nat) (data : Word) (t : Transaction),
      addressedAccess base dir addr size data = some t →
        (t.admitted = true ↔ size = 32 ∧ ∃ r : Reg, addr = base + r.offset))

/-- R220, R1003: the machine serves admitted accesses one at a time in the order issued; its core and the host's answers are
those of hostStep after hostStep, whatever is issued after them. How the host's side is held is the model's (log 2, 3), and the
order is deduced (log 8). -/
def Obligations.MachineServesAccessesInOrder : Prop :=
  ∀ (ts : List Transaction) (s : State) (rest : List BusEvent) (c : CoreState) (as : List Answer),
    s.pending = accessEvents ts ++ rest → hostSteps ts (s.core, s.answers) = .ok (c, as) →
      Host.Core.run Sys2Proof.core ts.length s =
        .next ({ core := c, pending := rest, answers := as } : State)

/-! ## What changes each register -/

/-- R115: every write to CMD overwrites ERR with that command's outcome, and nothing else writes it except reset. -/
def Obligations.ErrReportsTheLatestCommandAlone : Prop :=
  State.reset.core.err = 0#4 ∧
  ∀ s t : State, step s = .next t →
    (nextResets s → t.core.err = 0#4) ∧
    (∀ w, nextWrites s .cmd w →
      t.core.err =
        if w = 0x00000001#32 then 0#4
        else if w = 0x00000002#32 ∨ w = 0x00000003#32 then (if s.core.keyValid then 0#4 else 2#4)
        else 1#4) ∧
    (¬ nextResets s → (∀ w, ¬ nextWrites s .cmd w) → t.core.err = s.core.err)

/-- R113: LOAD_KEY sets KEY_VALID, only reset clears it, no other command or access writes it, so that it says whether a
LOAD_KEY was served since the last reset; ENCRYPT and DECRYPT read it; its reset value is 0. -/
def Obligations.KeyValidFollowsLoadKeyAndReset : Prop :=
  State.reset.core.keyValid = false ∧
  (∀ c : CoreState, c.statusWord.getLsbD 0 = c.keyValid) ∧
  (∀ s t : State, step s = .next t →
    (nextResets s → t.core.keyValid = false) ∧
    (nextWrites s .cmd 0x00000001#32 → t.core.keyValid = true) ∧
    (¬ nextResets s → ¬ nextWrites s .cmd 0x00000001#32 → t.core.keyValid = s.core.keyValid)) ∧
  (∀ (es : List BusEvent) (s t : State), s.pending = es → Host.Core.run Sys2Proof.core es.length s = .next t →
    t.core.keyValid = keyLoadedAfter es s.core.keyValid) ∧
  (∀ (s : State) (i : Instr), i = .encrypt ∨ i = .decrypt →
    ∃ t, exec i s = .next t ∧ (t.core.err = 2#4 ↔ s.core.keyValid = false))

/-- R114: DOUT_VALID is set by a successful cipher command, cleared by LOAD_KEY and reset, and left by everything else. -/
def Obligations.DoutValidFollowsCommands : Prop :=
  ∀ s t : State, step s = .next t →
    (nextResets s → t.core.doutValid = false) ∧
    (nextWrites s .cmd 0x00000001#32 → t.core.doutValid = false) ∧
    (nextWrites s .cmd 0x00000002#32 ∨ nextWrites s .cmd 0x00000003#32 →
      t.core.doutValid = (s.core.keyValid || s.core.doutValid)) ∧
    (¬ nextResets s → (∀ w, w = 0x00000001#32 ∨ w = 0x00000002#32 ∨ w = 0x00000003#32 → ¬ nextWrites s .cmd w) →
      t.core.doutValid = s.core.doutValid)

/-- R111: RK is changed only at LOAD_KEY and at reset: not by a cipher command, an illegal word or a register access. -/
def Obligations.ScheduleChangesOnlyAtLoadKeyAndReset : Prop :=
  ∀ s t : State, step s = .next t → t.core.rk ≠ s.core.rk → nextResets s ∨ nextWrites s .cmd 0x00000001#32

/-- R108, R109, R1214: DOUT is changed only by a successful cipher command, by LOAD_KEY and by reset. -/
def Obligations.ResultLivesUntilTheNextCommand : Prop :=
  ∀ s t : State, step s = .next t → (t.core.doutHi ≠ s.core.doutHi ∨ t.core.doutLo ≠ s.core.doutLo) →
    nextResets s ∨ nextWrites s .cmd 0x00000001#32 ∨
    (s.core.keyValid = true ∧ (nextWrites s .cmd 0x00000002#32 ∨ nextWrites s .cmd 0x00000003#32))

/-- R102 to R105: a key latch changes only by a write to it, by LOAD_KEY, which clears it, and by reset; a DIN register only by
a write to it and by reset, since no command changes it. -/
def Obligations.OperandRegistersBelongToTheHost : Prop :=
  ∀ s t : State, step s = .next t → ¬ nextResets s →
    (t.core.keyHi ≠ s.core.keyHi →
      nextWrites s .keyHi t.core.keyHi ∨ (nextWrites s .cmd 0x00000001#32 ∧ t.core.keyHi = 0#32)) ∧
    (t.core.keyLo ≠ s.core.keyLo →
      nextWrites s .keyLo t.core.keyLo ∨ (nextWrites s .cmd 0x00000001#32 ∧ t.core.keyLo = 0#32)) ∧
    (t.core.dinHi ≠ s.core.dinHi → nextWrites s .dinHi t.core.dinHi) ∧
    (t.core.dinLo ≠ s.core.dinLo → nextWrites s .dinLo t.core.dinLo)

/-- R107: the word STATUS reads as and its fields, its reset value, and that a write to it is ignored. -/
def Obligations.StatusWordHasItsFields : Prop :=
  (∀ c : CoreState,
    c.statusWord = (c.err ++ 0b00#2 ++ BitVec.ofBool c.doutValid ++ BitVec.ofBool c.rk.isSome).setWidth 32 ∧
    c.statusWord.getLsbD 0 = c.keyValid ∧ c.statusWord.getLsbD 1 = c.doutValid ∧
    c.statusWord.extractLsb' 2 2 = 0#2 ∧ c.statusWord.extractLsb' 4 4 = c.err ∧
    c.statusWord.extractLsb' 8 24 = 0#24) ∧
  State.reset.core.statusWord = 0#32 ∧
  (∀ (c : CoreState) (v : Word), hostStep c ⟨.write, 0x14, 32, v⟩ = .ok (c, none))

/-- R116: the reserved bits of STATUS read 0 in every state, and no step produces a reserved ERR code. -/
def Obligations.ReservedCodesNeverAppear : Prop :=
  (∀ c : CoreState, c.statusWord.extractLsb' 2 2 = 0#2 ∧ c.statusWord.extractLsb' 8 24 = 0#24) ∧
  (∀ s t : State, s.core.err.toNat ≤ 2 → step s = .next t → t.core.err.toNat ≤ 2)

/-! ## The invariant, and what the host cannot learn -/

/-- Every step keeps the invariant, from every state that meets it: ERR is a legal code, RK holds a schedule KeySchedule built,
DOUT_VALID is 1 only while RK holds one, and DOUT is clear while it is 0. And every step keeps the ledger true: the operand
registers, RK and DOUT are what the events served say, DOUT the transform of the block DIN held at the last successful cipher
command under the schedule now in RK. -/
def Obligations.StepKeepsTheCoreInvariant : Prop :=
  ∀ s t : State, step s = .next t →
    (MachineInv s → MachineInv t) ∧
    (∀ g : Ledger, g.describes s.core → (g.serveNext s).describes t.core)

/-- The state after reset meets the invariant, and the ledger with no key and no result describes it. -/
def Obligations.ResetMeetsTheCoreInvariant : Prop :=
  MachineInv State.reset ∧ Ledger.reset.describes State.reset.core

/-- R1001, R1124, R102, R103, R110: the key latches and RK cannot be read. Two machines the host cannot tell apart, whatever
their key latches and schedules, stay so under every event but a cipher command that runs. -/
def Obligations.KeyMaterialStaysHidden : Prop :=
  ∀ s t : State, hostCannotTell s t →
    (s.core.keyValid = true → ¬ nextWrites s .cmd 0x00000002#32 ∧ ¬ nextWrites s .cmd 0x00000003#32) →
      (∃ s' t', step s = .next s' ∧ step t = .next t' ∧ hostCannotTell s' t') ∨
      (∃ r, step s = .fault r ∧ step t = .fault r) ∨
      (∃ r, step s = .refused r ∧ step t = .refused r)

/-! ## Bit packing and tables -/

/-- R404: the big-endian conversion between 8 bytes and 64 bits, both ways, with the spec's two examples. -/
def Obligations.BytesAndWordsConvertBigEndian : Prop :=
  (∀ b0 b1 b2 b3 b4 b5 b6 b7 : Byte,
    bytesToU64 [b0, b1, b2, b3, b4, b5, b6, b7] = b0 ++ b1 ++ b2 ++ b3 ++ b4 ++ b5 ++ b6 ++ b7 ∧
    hi32 (bytesToU64 [b0, b1, b2, b3, b4, b5, b6, b7]) = b0 ++ b1 ++ b2 ++ b3 ∧
    lo32 (bytesToU64 [b0, b1, b2, b3, b4, b5, b6, b7]) = b4 ++ b5 ++ b6 ++ b7 ∧
    u64ToBytes (bytesToU64 [b0, b1, b2, b3, b4, b5, b6, b7]) = [b0, b1, b2, b3, b4, b5, b6, b7] ∧
    fips (bytesToU64 [b0, b1, b2, b3, b4, b5, b6, b7]) 1 = b0.getLsbD 7) ∧
  (∀ x : Block, bytesToU64 (u64ToBytes x) = x) ∧
  hi32 (bytesToU64 [0x61#8, 0x62#8, 0x63#8, 0x64#8, 0x65#8, 0x66#8, 0x67#8, 0x68#8]) = 0x61626364#32 ∧
  lo32 (bytesToU64 [0x61#8, 0x62#8, 0x63#8, 0x64#8, 0x65#8, 0x66#8, 0x67#8, 0x68#8]) = 0x65666768#32 ∧
  hi32 (bytesToU64 [0#8, 0#8, 0#8, 0#8, 0#8, 0#8, 0#8, 0xFF#8]) = 0x00000000#32 ∧
  lo32 (bytesToU64 [0#8, 0#8, 0#8, 0#8, 0#8, 0#8, 0#8, 0xFF#8]) = 0x000000FF#32

/-- R410: for each of the six tables, output position i copies input position T[i], and the split-half form is the same
function. -/
def Obligations.TablesInBothFormsAgree : Prop :=
  (∀ (x : Block) (i : Nat), 1 ≤ i → i ≤ 64 →
    (initialPermutation x).getLsbD (64 - i) = x.getLsbD (64 - tableIP.getD (i - 1) 0) ∧
    (inverseInitialPermutation x).getLsbD (64 - i) = x.getLsbD (64 - tableRIP.getD (i - 1) 0)) ∧
  (∀ (r : Word) (i : Nat), 1 ≤ i → i ≤ 48 → (expansion r).getLsbD (48 - i) = r.getLsbD (32 - tableE.getD (i - 1) 0)) ∧
  (∀ (y : Word) (i : Nat), 1 ≤ i → i ≤ 32 →
    (roundPermutation y).getLsbD (32 - i) = y.getLsbD (32 - tableP.getD (i - 1) 0)) ∧
  (∀ (k : Block) (i : Nat), 1 ≤ i → i ≤ 56 →
    (permutedChoice1 k).getLsbD (56 - i) = k.getLsbD (64 - tablePC1.getD (i - 1) 0)) ∧
  (∀ (y : BitVec 56) (i : Nat), 1 ≤ i → i ≤ 48 →
    (permutedChoice2 y).getLsbD (48 - i) = y.getLsbD (56 - tablePC2.getD (i - 1) 0)) ∧
  (∀ x : Block, initialPermutation x = permHalves splitIP (hi32 x) (lo32 x)) ∧
  (∀ x : Block, inverseInitialPermutation x = permHalves splitRIP (hi32 x) (lo32 x)) ∧
  (∀ r : Word, expansion r = permBits splitE r) ∧
  (∀ y : Word, roundPermutation y = permBits splitP y) ∧
  (∀ k : Block, permutedChoice1 k = permHalves splitPC1 (hi32 k) (lo32 k)) ∧
  (∀ y : BitVec 56, permutedChoice2 y = permHalves splitPC2 (hi28 y) (lo28 y))

/-- R521: RIP is the inverse of IP, in the table and as a function, with the worked example. -/
def Obligations.RipInvertsIp : Prop :=
  (∀ i, 1 ≤ i → i ≤ 64 → tableRIP.getD (tableIP.getD (i - 1) 0 - 1) 0 = i) ∧
  (∀ x : Block, inverseInitialPermutation (initialPermutation x) = x) ∧
  (∀ x : Block, initialPermutation (inverseInitialPermutation x) = x) ∧
  inverseInitialPermutation 0xCC00CCFFF0AAF0AA#64 = 0x0123456789ABCDEF#64

/-- R611: each row of each S-box is a permutation of 0 to 15. -/
def Obligations.SboxRowsArePermutations : Prop :=
  ∀ j, 1 ≤ j → j ≤ 8 → (sboxTable j).length = 4 ∧ ∀ row ∈ sboxTable j, row.Perm (List.range 16)

/-- R612: the flat arrays are the row and column tables. -/
def Obligations.FlatSboxesAreTheSameFunction : Prop :=
  ∀ j, 1 ≤ j → j ≤ 8 → (sboxFlat j).length = 64 ∧
    ∀ b : BitVec 6, BitVec.ofNat 4 ((sboxFlat j).getD b.toNat 0) = sboxLookup (sboxTable j) b

/-- R408: group j of the input feeds S-box j, whose output is nibble j; where the groups and nibbles lie in FIPS positions and
in the 24-bit halves. -/
def Obligations.SubstitutionActsPerGroup : Prop :=
  ∀ (x : RoundKey) (j : Nat), 1 ≤ j → j ≤ 8 →
    (substitute x).extractLsb' (32 - 4 * j) 4 = sboxLookup (sboxTable j) (x.extractLsb' (48 - 6 * j) 6) ∧
    (∀ p, p < 6 → (x.extractLsb' (48 - 6 * j) 6).getLsbD (5 - p) = fips x (6 * j - 5 + p)) ∧
    (∀ p, p < 4 →
      ((substitute x).extractLsb' (32 - 4 * j) 4).getLsbD (3 - p) = fips (substitute x) (4 * j - 3 + p)) ∧
    (j ≤ 4 → x.extractLsb' (48 - 6 * j) 6 = (hi24 x).extractLsb' (24 - 6 * j) 6) ∧
    (5 ≤ j → x.extractLsb' (48 - 6 * j) 6 = (lo24 x).extractLsb' (48 - 6 * j) 6)

/-! ## Key schedule -/

/-- R700, R701, R702: the shift table; the rotation is to the left within 28 bits, so that bit 27 re-enters at bit 0; Cn and Dn are rotations of C(n-1) and D(n-1) by s_n, hence of C0 and D0 by t_n, whose table is
given; and C16 = C0, D16 = D0. -/
def Obligations.KeyHalvesRotateCumulatively : Prop :=
  (List.range' 1 16).map shiftAmount = [1, 1, 2, 2, 2, 2, 2, 2, 1, 2, 2, 2, 2, 2, 2, 1] ∧
  (List.range' 1 16).map cumulativeShift = [1, 2, 4, 6, 8, 10, 12, 14, 15, 17, 19, 21, 23, 25, 27, 28] ∧
  (∀ n, cumulativeShift n = ((List.range' 1 n).map shiftAmount).sum) ∧
  (∀ (x : KeyHalf) (s i : Nat), s < 28 → i < 28 → (rotl28 x s).getLsbD ((i + s) % 28) = x.getLsbD i) ∧
  (∀ x : KeyHalf, (rotl28 x 1).getLsbD 0 = x.getLsbD 27) ∧
  ∀ k : Block,
    (∀ n, 1 ≤ n → n ≤ 16 →
      (keyHalves k n).1 = rotl28 (keyHalves k (n - 1)).1 (shiftAmount n) ∧
      (keyHalves k n).2 = rotl28 (keyHalves k (n - 1)).2 (shiftAmount n)) ∧
    (∀ n, 1 ≤ n → n ≤ 16 →
      (keyHalves k n).1 = rotl28 (hi28 (permutedChoice1 k)) (cumulativeShift n) ∧
      (keyHalves k n).2 = rotl28 (lo28 (permutedChoice1 k)) (cumulativeShift n)) ∧
    (keyHalves k 16).1 = hi28 (permutedChoice1 k) ∧ (keyHalves k 16).2 = lo28 (permutedChoice1 k)

/-- R704, R405: only the 56 non-parity bits of the key affect the schedule; the parity positions are the least significant bits
of the key's bytes. -/
def Obligations.ScheduleIgnoresParityBits : Prop :=
  (∀ k : Block, parityPositions.map (fips k) =
    [k.getLsbD 56, k.getLsbD 48, k.getLsbD 40, k.getLsbD 32, k.getLsbD 24, k.getLsbD 16, k.getLsbD 8, k.getLsbD 0]) ∧
  (∀ k k' : Block, (∀ n, 1 ≤ n → n ≤ 64 → n ∉ parityPositions → fips k n = fips k' n) → keySchedule k = keySchedule k')

/-- R407, R550: the high half of a round key depends on C alone and the low half on D alone. -/
def Obligations.RoundKeyHalvesComeFromCAndD : Prop :=
  (∀ c d d' : KeyHalf, hi24 (permutedChoice2 (join56 c d)) = hi24 (permutedChoice2 (join56 c d'))) ∧
  (∀ c c' d : KeyHalf, lo24 (permutedChoice2 (join56 c d)) = lo24 (permutedChoice2 (join56 c' d)))

/-- R703: (C0, D0) are the halves of PC-1's output; each round rotates both and gives PC-2 of Cn ‖ Dn, kept in slot n - 1. -/
def Obligations.RoundKeysComeFromRotatedHalves : Prop :=
  ∀ k : Block,
    keyHalves k 0 = (hi28 (permutedChoice1 k), lo28 (permutedChoice1 k)) ∧
    ∀ (n : Nat) (h1 : 1 ≤ n) (h2 : n ≤ 16),
      keyHalves k n =
        (rotl28 (keyHalves k (n - 1)).1 (shiftAmount n), rotl28 (keyHalves k (n - 1)).2 (shiftAmount n)) ∧
      (keySchedule k)[n - 1]'(by omega) = permutedChoice2 ((keyHalves k n).1 ++ (keyHalves k n).2)

/-! ## The round and the block transform -/

/-- R800, R802: f is expansion, key mixing, substitution and P; the mixing may be done half by half; and a round gives
(R, L xor f(R, K)). -/
def Obligations.RoundFollowsItsSteps : Prop :=
  (∀ (r : Word) (k : RoundKey),
    roundFunction r k = roundPermutation (substitute (expansion r ^^^ k)) ∧
    expansion r ^^^ k = join48 (hi24 (expansion r) ^^^ hi24 k) (lo24 (expansion r) ^^^ lo24 k)) ∧
  (∀ (l r : Word) (k : RoundKey), feistelRound (l, r) k = (r, l ^^^ roundFunction r k))

/-- R406: (L0, R0) are the halves of IP(B); the pre-output is R16 ‖ L16, one swap of L16 ‖ R16; OUT = RIP(preout). -/
def Obligations.OutputIsRipOfTheSwappedHalves : Prop :=
  (∀ b : Block, initialHalves b = (hi32 (initialPermutation b), lo32 (initialPermutation b))) ∧
  (∀ l r : Word, preOutput (l, r) = r ++ l ∧ preOutput (l, r) = swap64 (l ++ r)) ∧
  (∀ (b : Block) (rk : Schedule) (d : Direction),
    blockTransform b rk d =
      inverseInitialPermutation (preOutput (runRounds (initialHalves b) (keyOrder d rk))))

/-- R803: unround undoes round, for every pair and every round key. -/
def Obligations.UnroundInvertsRound : Prop :=
  ∀ (lr : Word × Word) (k : RoundKey),
    feistelUnround lr k = (lr.2 ^^^ roundFunction lr.1 k, lr.1) ∧ feistelUnround (feistelRound lr k) k = lr

/-- R901: round n uses RK[n-1] for encryption and RK[16-n] for decryption, in that order. -/
def Obligations.RoundKeyOrderOfEachDirection : Prop :=
  (∀ (rk : Schedule) (n : Nat) (h1 : 1 ≤ n) (h2 : n ≤ 16),
    (keyOrder .enc rk)[n - 1]? = some (rk[n - 1]'(by omega)) ∧
    (keyOrder .dec rk)[n - 1]? = some (rk[16 - n]'(by omega))) ∧
  (∀ (rk : Schedule) (d : Direction), (keyOrder d rk).length = 16) ∧
  (∀ (lr : Word × Word) (keys : List RoundKey) (k : RoundKey),
    runRounds lr (keys ++ [k]) = feistelRound (runRounds lr keys) k)

/-- R904: decryption undoes encryption and encryption undoes decryption, for every block and every schedule, whether or not
KeySchedule built it. -/
def Obligations.BlockTransformsInvertEachOther : Prop :=
  ∀ (b : Block) (rk : Schedule),
    blockTransform (blockTransform b rk .enc) rk .dec = b ∧
    blockTransform (blockTransform b rk .dec) rk .enc = b

/-- Vector V23, which follows from the rules: complementing the key and the block complements the output. -/
def Obligations.ComplementingKeyAndBlockComplementsTheOutput : Prop :=
  ∀ (k b : Block) (d : Direction),
    blockTransform (~~~b) (keySchedule (~~~k)) d = ~~~(blockTransform b (keySchedule k) d)

/-- Vectors V15 and V24, R910's corner case: a key whose C0 and D0 are each all zeros or all ones gives 16 equal round keys, so
that encryption equals decryption and is its own inverse. -/
def Obligations.WeakKeysMakeEncryptionAnInvolution : Prop :=
  ∀ k : Block,
    (hi28 (permutedChoice1 k) = 0x0000000#28 ∨ hi28 (permutedChoice1 k) = 0xFFFFFFF#28) →
    (lo28 (permutedChoice1 k) = 0x0000000#28 ∨ lo28 (permutedChoice1 k) = 0xFFFFFFF#28) →
      (∀ i (h : i < 16), (keySchedule k)[i] = (keySchedule k)[0]) ∧
      ∀ b : Block,
        blockTransform b (keySchedule k) .enc = blockTransform b (keySchedule k) .dec ∧
        blockTransform (blockTransform b (keySchedule k) .enc) (keySchedule k) .enc = b

/-! ## The machine as a cipher -/

/-- R911's corner cases: under one instance, writing the DOUT of a cipher command to DIN and giving the other command returns
the original block. How the host's accesses are held is the model's (log 2). -/
def Obligations.OtherCommandRestoresTheBlock : Prop :=
  ∀ (s t : State) (i j : Instr),
    (i = .encrypt ∧ j = .decrypt) ∨ (i = .decrypt ∧ j = .encrypt) → s.core.keyValid = true → exec i s = .next t →
      ∃ u : State,
        Host.Core.run Sys2Proof.core 3
          (t.withPending [.access (writeAccess .dinHi t.core.doutHi), .access (writeAccess .dinLo t.core.doutLo),
            .access (commandAccess j)]) = .next u ∧
        u.core.doutHi = s.core.dinHi ∧ u.core.doutLo = s.core.dinLo ∧ u.core.doutValid = true ∧ u.core.err = 0#4

/-- R1210: from every state, key, LOAD_KEY, block, command, in that order, gives the host the transform of that block under that
key, and STATUS shows KEY_VALID, DOUT_VALID and OK. -/
def Obligations.BootOrderGivesTheCipher : Prop :=
  ∀ (s : State) (k b : Block) (i : Instr) (d : Direction) (rest : List BusEvent),
    (i = .encrypt ∧ d = .enc) ∨ (i = .decrypt ∧ d = .dec) →
    s.pending = accessEvents
      [writeAccess .keyHi (hi32 k), writeAccess .keyLo (lo32 k), commandAccess .loadKey,
       writeAccess .dinHi (hi32 b), writeAccess .dinLo (lo32 b), commandAccess i,
       readAccess .doutHi, readAccess .doutLo, readAccess .status] ++ rest →
      ∃ (t : State) (h l : Word),
        Host.Core.run Sys2Proof.core 9 s = .next t ∧
        t.answers = .word 0x00000003#32 :: .word l :: .word h :: s.answers ∧
        h ++ l = blockTransform b (keySchedule k) d ∧ t.pending = rest

/-! ## The façade -/

/-- R1011 to R1013, R1015: a key that is not 8 bytes and data that is not whole blocks are errors, with no state after them;
empty data gives empty data and leaves the core as it was. -/
def Obligations.FacadeChecksLengthsFirst : Prop :=
  (∀ (key : ByteString) (c : CoreState), key.length ≠ 8 → facadeConstruct key c = .error .invalidKeyLength) ∧
  (∀ (data : ByteString) (c : CoreState), data.length % 8 ≠ 0 →
    facadeEncrypt data c = .error .invalidDataLength ∧ facadeDecrypt data c = .error .invalidDataLength) ∧
  (∀ c : CoreState, facadeEncrypt [] c = .ok ([], c) ∧ facadeDecrypt [] c = .ok ([], c))

/-- R1012: a façade block is five accesses to the window, and its result is what the two reads return. -/
def Obligations.FacadeBlockIsFiveAccesses : Prop :=
  ∀ (i : Instr) (b : Block) (c : CoreState) (as : List Answer),
    hostSteps
      [writeAccess .dinHi (hi32 b), writeAccess .dinLo (lo32 b), commandAccess i,
       readAccess .doutHi, readAccess .doutLo] (c, as) =
      .ok ((blockSequence i b c).2,
        .word (lo32 (blockSequence i b c).1) :: .word (hi32 (blockSequence i b c).1) :: as)

/-- R1016: after a construction the façade never sees NO_KEY or ILLEGAL_CMD: ERR is OK after the construction and after every
call that follows. -/
def Obligations.FacadeNeverSeesAnErrorCode : Prop :=
  (∀ (key : ByteString) (c c' : CoreState), facadeConstruct key c = .ok c' →
    c'.err = 0#4 ∧ c'.keyValid = true) ∧
  (∀ (data out : ByteString) (c c' : CoreState), c.keyValid = true → c.err = 0#4 →
    facadeEncrypt data c = .ok (out, c') ∨ facadeDecrypt data c = .ok (out, c') →
      c'.err = 0#4 ∧ c'.keyValid = true)

/-- R1014: what the façade computes, at a construction and at every later call under its key, whatever the other registers
hold: each 8-byte chunk transformed on its own and joined in order, the same length, and decrypt undoes encrypt. Each call
keeps RK, so the next one is such a call again. -/
def Obligations.FacadeEncryptsBlockByBlock : Prop :=
  (∀ (kb : ByteString) (c : CoreState), kb.length = 8 →
    ∃ c', facadeConstruct kb c = .ok c' ∧ c'.rk = some (keySchedule (bytesToU64 kb))) ∧
  (∀ (kb data : ByteString) (m : Nat) (c : CoreState),
    c.rk = some (keySchedule (bytesToU64 kb)) → data.length = 8 * m →
      ∃ (out out' : ByteString) (c1 c2 : CoreState),
        facadeEncrypt data c = .ok (out, c1) ∧ c1.rk = c.rk ∧
        out = (List.range m).flatMap (fun n =>
          u64ToBytes (blockTransform (bytesToU64 ((data.drop (8 * n)).take 8)) (keySchedule (bytesToU64 kb)) .enc)) ∧
        facadeDecrypt data c = .ok (out', c2) ∧ c2.rk = c.rk ∧
        out' = (List.range m).flatMap (fun n =>
          u64ToBytes (blockTransform (bytesToU64 ((data.drop (8 * n)).take 8)) (keySchedule (bytesToU64 kb)) .dec)) ∧
        out.length = data.length ∧ out'.length = data.length ∧
        ∀ c', c'.rk = c.rk → ∃ c3, facadeDecrypt out c' = .ok (data, c3) ∧ c3.rk = c.rk)

/-- R1010, R1015: a façade call over host memory leaves the façade's output for the source's bytes at the destination, and the
core the façade leaves; it keeps the memory's canonical form and changes no byte outside the output. The form of host memory, and that the output goes to an address of its own, are the model's (log 11). -/
def Obligations.MemoryFacadeWritesOnlyItsOutput : Prop :=
  ∀ (i : Instr) (m m' : HostMemory) (src len dst : Nat) (c c' : CoreState),
    hostMemoryWf m = true → cipherInMemory i m src len dst c = .ok (m', c') →
      (∃ out, facadeCipher i (memReadBytes m src len) c = .ok (out, c') ∧ memReadBytes m' dst len = out) ∧
      hostMemoryWf m' = true ∧ ∀ a, a < dst ∨ dst + len ≤ a → memRead m' a = memRead m a

/-! ## The core over a list of events -/

/-- R114: over any list of events served to its end, from any core a ledger describes, DOUT_VALID says whether a cipher command
succeeded since the last LOAD_KEY and reset, and while it is 1 DOUT is the transform, in the direction of the last such command,
of the block DIN held at it, under the schedule now in RK; without one DOUT is 0. What each single event does to DOUT_VALID, a
failed command leaving it among them, is said too, and that no command's other effects depend on it. -/
def Obligations.DoutIsTheLastResultOverEvents : Prop :=
  State.reset.core.doutValid = false ∧
  (∀ (es : List BusEvent) (s t : State) (g : Ledger),
    g.describes s.core → s.pending = es → Host.Core.run Sys2Proof.core es.length s = .next t →
      (es.foldl Ledger.serve g).describes t.core) ∧
  (∀ (c : CoreState) (w : Word),
    (w = 0x00000001#32 →
      (cmdStep c w).doutValid = false ∧ (cmdStep c w).doutHi = 0#32 ∧ (cmdStep c w).doutLo = 0#32) ∧
    (w = 0x00000002#32 ∨ w = 0x00000003#32 → (cmdStep c w).err = 0#4 → (cmdStep c w).doutValid = true) ∧
    ((cmdStep c w).err ≠ 0#4 → (cmdStep c w).doutValid = c.doutValid) ∧
    (∀ b, ∃ b', cmdStep { c with doutValid := b } w = { cmdStep c w with doutValid := b' }))
end

