-- ==== Sys2Proof/Laws/State.lean ====
section
/-! SUPPORT. One lemma per field per update of the core state and of the machine state, so that no later proof unfolds a
record update. -/

namespace Sys2Proof.Laws

open Sys2Proof.Machine

@[simp] theorem recordOutcome_keyHi (c : CoreState) (code : BitVec 4) : (c.recordOutcome code).keyHi = c.keyHi := rfl
@[simp] theorem recordOutcome_keyLo (c : CoreState) (code : BitVec 4) : (c.recordOutcome code).keyLo = c.keyLo := rfl
@[simp] theorem recordOutcome_dinHi (c : CoreState) (code : BitVec 4) : (c.recordOutcome code).dinHi = c.dinHi := rfl
@[simp] theorem recordOutcome_dinLo (c : CoreState) (code : BitVec 4) : (c.recordOutcome code).dinLo = c.dinLo := rfl
@[simp] theorem recordOutcome_doutHi (c : CoreState) (code : BitVec 4) : (c.recordOutcome code).doutHi = c.doutHi := rfl
@[simp] theorem recordOutcome_doutLo (c : CoreState) (code : BitVec 4) : (c.recordOutcome code).doutLo = c.doutLo := rfl
@[simp] theorem recordOutcome_rk (c : CoreState) (code : BitVec 4) : (c.recordOutcome code).rk = c.rk := rfl
@[simp] theorem recordOutcome_doutValid (c : CoreState) (code : BitVec 4) : (c.recordOutcome code).doutValid = c.doutValid := rfl
@[simp] theorem recordOutcome_err (c : CoreState) (code : BitVec 4) : (c.recordOutcome code).err = code := rfl

@[simp] theorem installSchedule_keyHi (c : CoreState) (ks : Schedule) : (c.installSchedule ks).keyHi = c.keyHi := rfl
@[simp] theorem installSchedule_keyLo (c : CoreState) (ks : Schedule) : (c.installSchedule ks).keyLo = c.keyLo := rfl
@[simp] theorem installSchedule_dinHi (c : CoreState) (ks : Schedule) : (c.installSchedule ks).dinHi = c.dinHi := rfl
@[simp] theorem installSchedule_dinLo (c : CoreState) (ks : Schedule) : (c.installSchedule ks).dinLo = c.dinLo := rfl
@[simp] theorem installSchedule_doutHi (c : CoreState) (ks : Schedule) : (c.installSchedule ks).doutHi = c.doutHi := rfl
@[simp] theorem installSchedule_doutLo (c : CoreState) (ks : Schedule) : (c.installSchedule ks).doutLo = c.doutLo := rfl
@[simp] theorem installSchedule_rk (c : CoreState) (ks : Schedule) : (c.installSchedule ks).rk = some ks := rfl
@[simp] theorem installSchedule_doutValid (c : CoreState) (ks : Schedule) : (c.installSchedule ks).doutValid = c.doutValid := rfl
@[simp] theorem installSchedule_err (c : CoreState) (ks : Schedule) : (c.installSchedule ks).err = c.err := rfl

@[simp] theorem clearResult_keyHi (c : CoreState) : (c.clearResult).keyHi = c.keyHi := rfl
@[simp] theorem clearResult_keyLo (c : CoreState) : (c.clearResult).keyLo = c.keyLo := rfl
@[simp] theorem clearResult_dinHi (c : CoreState) : (c.clearResult).dinHi = c.dinHi := rfl
@[simp] theorem clearResult_dinLo (c : CoreState) : (c.clearResult).dinLo = c.dinLo := rfl
@[simp] theorem clearResult_doutHi (c : CoreState) : (c.clearResult).doutHi = 0#32 := rfl
@[simp] theorem clearResult_doutLo (c : CoreState) : (c.clearResult).doutLo = 0#32 := rfl
@[simp] theorem clearResult_rk (c : CoreState) : (c.clearResult).rk = c.rk := rfl
@[simp] theorem clearResult_doutValid (c : CoreState) : (c.clearResult).doutValid = false := rfl
@[simp] theorem clearResult_err (c : CoreState) : (c.clearResult).err = c.err := rfl

@[simp] theorem clearKeyLatches_keyHi (c : CoreState) : (c.clearKeyLatches).keyHi = 0#32 := rfl
@[simp] theorem clearKeyLatches_keyLo (c : CoreState) : (c.clearKeyLatches).keyLo = 0#32 := rfl
@[simp] theorem clearKeyLatches_dinHi (c : CoreState) : (c.clearKeyLatches).dinHi = c.dinHi := rfl
@[simp] theorem clearKeyLatches_dinLo (c : CoreState) : (c.clearKeyLatches).dinLo = c.dinLo := rfl
@[simp] theorem clearKeyLatches_doutHi (c : CoreState) : (c.clearKeyLatches).doutHi = c.doutHi := rfl
@[simp] theorem clearKeyLatches_doutLo (c : CoreState) : (c.clearKeyLatches).doutLo = c.doutLo := rfl
@[simp] theorem clearKeyLatches_rk (c : CoreState) : (c.clearKeyLatches).rk = c.rk := rfl
@[simp] theorem clearKeyLatches_doutValid (c : CoreState) : (c.clearKeyLatches).doutValid = c.doutValid := rfl
@[simp] theorem clearKeyLatches_err (c : CoreState) : (c.clearKeyLatches).err = c.err := rfl

@[simp] theorem putResult_keyHi (c : CoreState) (out : Block) : (c.putResult out).keyHi = c.keyHi := rfl
@[simp] theorem putResult_keyLo (c : CoreState) (out : Block) : (c.putResult out).keyLo = c.keyLo := rfl
@[simp] theorem putResult_dinHi (c : CoreState) (out : Block) : (c.putResult out).dinHi = c.dinHi := rfl
@[simp] theorem putResult_dinLo (c : CoreState) (out : Block) : (c.putResult out).dinLo = c.dinLo := rfl
@[simp] theorem putResult_doutHi (c : CoreState) (out : Block) : (c.putResult out).doutHi = hi32 out := rfl
@[simp] theorem putResult_doutLo (c : CoreState) (out : Block) : (c.putResult out).doutLo = lo32 out := rfl
@[simp] theorem putResult_rk (c : CoreState) (out : Block) : (c.putResult out).rk = c.rk := rfl
@[simp] theorem putResult_doutValid (c : CoreState) (out : Block) : (c.putResult out).doutValid = true := rfl
@[simp] theorem putResult_err (c : CoreState) (out : Block) : (c.putResult out).err = c.err := rfl

@[simp] theorem withCore_core (s : State) (c : CoreState) : (s.withCore c).core = c := rfl
@[simp] theorem withCore_pending (s : State) (c : CoreState) : (s.withCore c).pending = s.pending := rfl
@[simp] theorem withCore_answers (s : State) (c : CoreState) : (s.withCore c).answers = s.answers := rfl

@[simp] theorem withAnswer_core (s : State) (a : Answer) : (s.withAnswer a).core = s.core := rfl
@[simp] theorem withAnswer_pending (s : State) (a : Answer) : (s.withAnswer a).pending = s.pending := rfl
@[simp] theorem withAnswer_answers (s : State) (a : Answer) : (s.withAnswer a).answers = a :: s.answers := rfl

@[simp] theorem withPending_core (s : State) (es : List BusEvent) : (s.withPending es).core = s.core := rfl
@[simp] theorem withPending_pending (s : State) (es : List BusEvent) : (s.withPending es).pending = es := rfl
@[simp] theorem withPending_answers (s : State) (es : List BusEvent) : (s.withPending es).answers = s.answers := rfl

end Sys2Proof.Laws
end

