-- ==== Sys2Proof/Laws/Commands.lean ====
section
/-! SUPPORT. What a command can do to the core, said once: the lemmas cited instead of unfolding the commands. -/

namespace Sys2Proof.Laws

open Sys2Proof.Machine

/-- R912: without a key a cipher command only records NO_KEY. -/
theorem cipherEffect_noKey (d : Direction) (c : CoreState) (h : c.rk = none) :
    cipherEffect d c = c.recordOutcome errNoKey := by
  unfold cipherEffect
  split
  · rfl
  · simp_all

/-- R910, R911: with a key a cipher command puts its result and records OK. -/
theorem cipherEffect_key (d : Direction) (c : CoreState) (rk : Schedule) (h : c.rk = some rk) :
    cipherEffect d c = (c.putResult (blockTransform c.blockOperand rk d)).recordOutcome errOk := by
  unfold cipherEffect
  split <;> simp_all

/-- A cipher command leaves RK, the key latches and DIN as they were (R111, R104). -/
theorem cipherEffect_frame (d : Direction) (c : CoreState) :
    (cipherEffect d c).rk = c.rk ∧ (cipherEffect d c).keyHi = c.keyHi ∧ (cipherEffect d c).keyLo = c.keyLo ∧
      (cipherEffect d c).dinHi = c.dinHi ∧ (cipherEffect d c).dinLo = c.dinLo := by
  cases h : c.rk with
  | none => simp [cipherEffect_noKey d c h, h]
  | some rk => simp [cipherEffect_key d c rk h, h]

/-- R302: a word decodes to the command whose word it is, or to none. -/
theorem decode_cases (w : Word) :
    (w = 0x00000001#32 ∧ decode w = .ok .loadKey) ∨ (w = 0x00000002#32 ∧ decode w = .ok .encrypt) ∨
      (w = 0x00000003#32 ∧ decode w = .ok .decrypt) ∨
      (w ≠ 0x00000001#32 ∧ w ≠ 0x00000002#32 ∧ w ≠ 0x00000003#32 ∧ ∃ e, decode w = .error e) := by
  unfold decode
  by_cases h1 : w = 0x00000001#32
  · simp [h1]
  by_cases h2 : w = 0x00000002#32
  · simp [h2]
  by_cases h3 : w = 0x00000003#32
  · simp [h3]
  refine .inr (.inr (.inr ⟨h1, h2, h3, ?_⟩))
  simp only [h1, h2, h3, if_false]
  split <;> exact ⟨_, rfl⟩

/-- R915, R301: the word 0x00000001 written to CMD. -/
theorem cmdStep_loadKey (c : CoreState) : cmdStep c 0x00000001#32 = loadKeyEffect c := by
  simp [cmdStep, decode_word_loadKey, commandEffect]

/-- R915, R301: the word 0x00000002 written to CMD. -/
theorem cmdStep_encrypt (c : CoreState) : cmdStep c 0x00000002#32 = cipherEffect .enc c := by
  simp [cmdStep, decode_word_encrypt, commandEffect, encryptEffect]

/-- R915, R301: the word 0x00000003 written to CMD. -/
theorem cmdStep_decrypt (c : CoreState) : cmdStep c 0x00000003#32 = cipherEffect .dec c := by
  simp [cmdStep, decode_word_decrypt, commandEffect, decryptEffect]

/-- R915: everything a write to CMD can do to the core, by its word. -/
theorem cmdStep_cases (c : CoreState) (w : Word) :
    (w = 0x00000001#32 ∧ cmdStep c w = loadKeyEffect c) ∨ (w = 0x00000002#32 ∧ cmdStep c w = cipherEffect .enc c) ∨
      (w = 0x00000003#32 ∧ cmdStep c w = cipherEffect .dec c) ∨
      (w ≠ 0x00000001#32 ∧ w ≠ 0x00000002#32 ∧ w ≠ 0x00000003#32 ∧ cmdStep c w = c.recordOutcome errIllegalCmd) := by
  obtain ⟨rfl, -⟩ | ⟨rfl, -⟩ | ⟨rfl, -⟩ | ⟨h1, h2, h3, e, h⟩ := decode_cases w
  · exact .inl ⟨rfl, cmdStep_loadKey c⟩
  · exact .inr (.inl ⟨rfl, cmdStep_encrypt c⟩)
  · exact .inr (.inr (.inl ⟨rfl, cmdStep_decrypt c⟩))
  · exact .inr (.inr (.inr ⟨h1, h2, h3, by simp [cmdStep, h, illegalCmdEffect]⟩))

end Sys2Proof.Laws
end

