-- ==== Sys2Proof/Laws/HostMemory.lean ====
section
/-! SUPPORT. Host memory keeps its canonical form and reads what was written (log 11). -/

namespace Sys2Proof.Laws

open Sys2Proof.Machine

theorem hostMemoryWf_nil : hostMemoryWf [] = true := rfl

theorem hostMemoryWfFrom_mono (lo lo' : Nat) (m : HostMemory) (hl : lo' ≤ lo) (h : hostMemoryWfFrom lo m = true) :
    hostMemoryWfFrom lo' m = true := by
  cases m with
  | nil => rfl
  | cons c rest =>
    simp only [hostMemoryWfFrom, Bool.and_eq_true, decide_eq_true_eq] at h ⊢
    exact ⟨⟨by omega, h.1.2⟩, h.2⟩

theorem consCell_wf (lo a : Nat) (v : Byte) (m : HostMemory) (hl : lo ≤ a) (h : hostMemoryWfFrom (a + 1) m = true) :
    hostMemoryWfFrom lo (consCell a v m) = true := by
  unfold consCell
  split
  · exact hostMemoryWfFrom_mono (a + 1) lo m (by omega) h
  · rename_i hv
    simp only [hostMemoryWfFrom, Bool.and_eq_true, decide_eq_true_eq, bne_iff_ne, ne_eq]
    exact ⟨⟨hl, hv⟩, h⟩

theorem memWrite_wfFrom (lo : Nat) (m : HostMemory) (a : Nat) (v : Byte) (hl : lo ≤ a)
    (h : hostMemoryWfFrom lo m = true) : hostMemoryWfFrom lo (memWrite m a v) = true := by
  induction m generalizing lo with
  | nil => exact consCell_wf lo a v [] hl rfl
  | cons c rest ih =>
    obtain ⟨b, u⟩ := c
    have h' := h
    simp only [hostMemoryWfFrom, Bool.and_eq_true, decide_eq_true_eq] at h
    unfold memWrite
    split
    · rename_i hb
      simp only [hostMemoryWfFrom, Bool.and_eq_true, decide_eq_true_eq]
      exact ⟨h.1, ih (b + 1) (by omega) h.2⟩
    · split
      · rename_i hb
        subst hb
        exact consCell_wf lo b v rest hl h.2
      · refine consCell_wf lo a v _ hl ?_
        simp only [hostMemoryWfFrom, Bool.and_eq_true, decide_eq_true_eq]
        exact ⟨⟨by omega, h.1.2⟩, h.2⟩

/-- A write keeps the canonical form. -/
theorem memWrite_wf (m : HostMemory) (a : Nat) (v : Byte) (h : hostMemoryWf m = true) :
    hostMemoryWf (memWrite m a v) = true := memWrite_wfFrom 0 m a v (Nat.zero_le a) h

/-- A write of a byte string keeps the canonical form. -/
theorem memWriteBytes_wf (m : HostMemory) (a : Nat) (bs : ByteString) (h : hostMemoryWf m = true) :
    hostMemoryWf (memWriteBytes m a bs) = true := by
  induction bs generalizing m a with
  | nil => exact h
  | cons b bs ih => exact ih _ _ (memWrite_wf m a b h)

theorem memRead_below (lo a : Nat) (m : HostMemory) (h : hostMemoryWfFrom lo m = true) (ha : a < lo) :
    memRead m a = hostMemoryDefault := by
  induction m generalizing lo with
  | nil => rfl
  | cons c rest ih =>
    simp only [hostMemoryWfFrom, Bool.and_eq_true, decide_eq_true_eq] at h
    have : c.1 ≠ a := by omega
    simp only [memRead, this, if_false]
    exact ih (c.1 + 1) h.2 (by omega)

theorem memRead_consCell (a b : Nat) (v : Byte) (m : HostMemory) (h : hostMemoryWfFrom (a + 1) m = true) :
    memRead (consCell a v m) b = if a = b then v else memRead m b := by
  unfold consCell
  split
  · rename_i hv
    subst hv
    split
    · rename_i hab
      subst hab
      exact memRead_below (a + 1) a m h (by omega)
    · rfl
  · rfl

theorem memRead_memWrite_from (lo : Nat) (m : HostMemory) (a b : Nat) (v : Byte) (h : hostMemoryWfFrom lo m = true) :
    memRead (memWrite m a v) b = if a = b then v else memRead m b := by
  induction m generalizing lo with
  | nil => exact memRead_consCell a b v [] rfl
  | cons c rest ih =>
    obtain ⟨x, u⟩ := c
    simp only [hostMemoryWfFrom, Bool.and_eq_true, decide_eq_true_eq] at h
    unfold memWrite
    split
    · simp only [memRead]
      rw [ih (x + 1) h.2]
      by_cases hx : x = b
      · have : a ≠ b := by omega
        simp [hx, this]
      · simp [hx]
    · split
      · rename_i hx
        subst hx
        rw [memRead_consCell x b v rest h.2]
        by_cases hxb : x = b <;> simp [memRead, hxb]
      · refine memRead_consCell a b v _ ?_
        simp only [hostMemoryWfFrom, Bool.and_eq_true, decide_eq_true_eq]
        exact ⟨⟨by omega, h.1.2⟩, h.2⟩

/-- A read after a write gives the byte written at its address and what was there before anywhere else. -/
theorem memRead_memWrite (m : HostMemory) (a b : Nat) (v : Byte) (h : hostMemoryWf m = true) :
    memRead (memWrite m a v) b = if a = b then v else memRead m b := memRead_memWrite_from 0 m a b v h

/-- Writing a byte string changes no byte outside it. -/
theorem memRead_memWriteBytes_outside (m : HostMemory) (a b : Nat) (bs : ByteString) (h : hostMemoryWf m = true)
    (hb : b < a ∨ a + bs.length ≤ b) : memRead (memWriteBytes m a bs) b = memRead m b := by
  induction bs generalizing m a with
  | nil => rfl
  | cons v bs ih =>
    simp only [List.length_cons] at hb
    rw [memWriteBytes, ih _ _ (memWrite_wf m a v h) (by omega), memRead_memWrite m a b v h, if_neg (by omega)]

/-- A byte string just written is what its addresses read as. -/
theorem memReadBytes_memWriteBytes (m : HostMemory) (a : Nat) (bs : ByteString) (h : hostMemoryWf m = true) :
    memReadBytes (memWriteBytes m a bs) a bs.length = bs := by
  induction bs generalizing m a with
  | nil => rfl
  | cons v bs ih =>
    have hw := memWrite_wf m a v h
    rw [List.length_cons, memReadBytes, memWriteBytes, ih _ _ hw, memRead_memWriteBytes_outside _ _ _ _ hw (by omega),
      memRead_memWrite m a a v h, if_pos rfl]

end Sys2Proof.Laws
end

