-- ==== Sys2Proof/Laws/PerInstr.lean ====
section
/-! SUPPORT. One lemma per command, for statements about all of them. -/

namespace Sys2Proof.Laws.CmdWord

/-- R300, R301: a command's word has RSVD zero and an OP that names a command, and the command itself has nothing that could
be ill formed. -/
def Statement (i : Instr) : Prop := cmdWordWf (encode i) = true ∧ i.wf = true

theorem loadKey : Statement .loadKey := by constructor <;> rfl
theorem encrypt : Statement .encrypt := by constructor <;> rfl
theorem decrypt : Statement .decrypt := by constructor <;> rfl

end Sys2Proof.Laws.CmdWord
end

