-- ==== Sys2Proof/Laws/Permutation.lean ====
section
/-! SUPPORT. What a table permutation does, bit by bit: the lemma cited instead of unfolding `perm`. -/

namespace Sys2Proof.Laws

open Sys2Proof.Machine

/-- Shifting in one bit per entry, first entry first: bit k of the result is the entry k places from the end. -/
theorem getLsbD_foldl_shiftConcat {α : Type} {n : Nat} (g : α → Bool) (t : List α) (acc : BitVec n) (k : Nat) :
    (t.foldl (fun a p => a.shiftConcat (g p)) acc).getLsbD k =
      (decide (k < n) && if k < t.length then ((t.reverse.map g).getD k false) else acc.getLsbD (k - t.length)) := by
  induction t generalizing acc with
  | nil =>
    by_cases h : k < n
    · simp [h]
    · simp [h, BitVec.getLsbD_of_ge _ _ (Nat.le_of_not_lt h)]
  | cons p t ih =>
    rw [List.foldl_cons, ih, BitVec.getLsbD_shiftConcat]
    by_cases hn : k < n
    · by_cases h : k < t.length
      · have h' : k < t.length + 1 := by omega
        simp [hn, h, h']
      · by_cases he : k = t.length
        · subst he
          simp [hn]
          intro h0
          omega
        · have h1 : ¬ k < t.length + 1 := by omega
          have h2 : k - t.length ≠ 0 := by omega
          have h3 : k - t.length < n := by omega
          have h4 : k - t.length - 1 = k - (t.length + 1) := by omega
          simp [hn, h, h1, h2, h3, h4]
    · simp [hn]

/-- R500: bit k of perm T x is the FIPS input position named by the entry k places from the table's end. -/
theorem getLsbD_perm {m n : Nat} (t : List Nat) (x : BitVec m) (h : t.length = n) (k : Nat) :
    (perm t x : BitVec n).getLsbD k = (decide (k < n) && (t.reverse.map (fips x)).getD k false) := by
  unfold perm
  rw [getLsbD_foldl_shiftConcat]
  by_cases hk : k < n <;> simp [hk, h]

/-- Bit k of a split-half permutation. -/
theorem getLsbD_permHalves {w n : Nat} (t : List (Half × Nat)) (hi lo : BitVec w) (h : t.length = n) (k : Nat) :
    (permHalves t hi lo : BitVec n).getLsbD k =
      (decide (k < n) && (t.reverse.map (fun p => (if p.1 = .hi then hi else lo).getLsbD p.2)).getD k false) := by
  unfold permHalves
  rw [getLsbD_foldl_shiftConcat]
  by_cases hk : k < n <;> simp [hk, h]

/-- Bit k of a bit-0 permutation. -/
theorem getLsbD_permBits {w n : Nat} (t : List Nat) (x : BitVec w) (h : t.length = n) (k : Nat) :
    (permBits t x : BitVec n).getLsbD k =
      (decide (k < n) && (t.reverse.map x.getLsbD).getD k false) := by
  unfold permBits
  rw [getLsbD_foldl_shiftConcat]
  by_cases hk : k < n <;> simp [hk, h]

/-- A slot of the key schedule is the round key of its round (R703). -/
@[simp] theorem getElem_keySchedule (k : Block) (i : Nat) (h : i < 16) :
    (keySchedule k)[i] = roundKeyOfRound k (i + 1) := by
  simp [keySchedule]

end Sys2Proof.Laws
end

