-- ==== Sys2Proof/Laws/Step.lean ====
section
/-! SUPPORT. What each shared operation of the machine can do, said once: the lemmas cited instead of unfolding `step`. -/

namespace Sys2Proof.Laws

open Sys2Proof.Machine

theorem regAtOffset_offset (r : Reg) : regAtOffset r.offset = some r := by cases r <;> rfl

/-- The transaction of WR and of CMD reaches its register (R307). -/
@[simp] theorem target_writeAccess (r : Reg) (v : Word) : (writeAccess r v).target = some r := by
  cases r <;> simp [writeAccess, Reg.offset, Transaction.target, Transaction.admitted, regAtOffset]

/-- The transaction of RD reaches its register (R307). -/
@[simp] theorem target_readAccess (r : Reg) : (readAccess r).target = some r := by
  cases r <;> simp [readAccess, Reg.offset, Transaction.target, Transaction.admitted, regAtOffset]

/-- Every admitted access reaches a register (R1002, R101). -/
theorem target_of_admitted (t : Transaction) (h : t.admitted = true) : ∃ r, t.target = some r := by
  have hoff : t.off = 0x00 ∨ t.off = 0x04 ∨ t.off = 0x08 ∨ t.off = 0x0C ∨ t.off = 0x10 ∨ t.off = 0x14 ∨
      t.off = 0x18 ∨ t.off = 0x1C := by
    simp only [Transaction.admitted, Bool.and_eq_true, beq_iff_eq, decide_eq_true_eq] at h
    omega
  unfold Transaction.target
  rw [if_pos h]
  rcases hoff with h | h | h | h | h | h | h | h <;> rw [h] <;> exact ⟨_, rfl⟩

/-- Every command answers a next state, with the host's side as it was: the core takes the command's effect (R915). -/
theorem exec_eq (i : Instr) (s : State) : exec i s = .next (s.withCore (commandEffect i s.core)) := by
  cases i <;> rfl

/-- A word written to CMD gives the core cmdStep's state, whichever word it is (R915). -/
theorem runCommand_eq (w : Word) (s : State) : runCommand w s = .next (s.withCore (cmdStep s.core w)) := by
  unfold runCommand cmdStep
  cases decode w with
  | ok i => exact exec_eq i s
  | error e => rfl

/-- An admitted write gives the core writeRegister's state (R1000). -/
theorem serveAccess_write (t : Transaction) (s : State) (r : Reg) (hr : t.target = some r) (hd : t.dir = .write) :
    serveAccess t s = .next (s.withCore (writeRegister r t.data s.core)) := by
  unfold serveAccess
  rw [hr, hd]
  cases r <;> first | rfl | exact runCommand_eq t.data s

/-- An admitted read gives the host readRegister's word and changes nothing in the core (R1001). -/
theorem serveAccess_read (t : Transaction) (s : State) (r : Reg) (hr : t.target = some r) (hd : t.dir = .read) :
    serveAccess t s = .next (s.withAnswer (.word (readRegister r s.core))) := by
  unfold serveAccess
  rw [hr, hd]
  cases r <;> rfl

/-- An access that reaches no register gets the platform's response (R206). -/
theorem serveAccess_refused (t : Transaction) (s : State) (hr : t.target = none) :
    serveAccess t s = refuseAccess Config.busErrorResponse t.off s := by
  unfold serveAccess
  rw [hr]

/-- If a refused access lets the run go on, the core and the pending accesses are as they were (R206). -/
theorem refuseAccess_next (p : BusErrorResponse) (off : Nat) (s t : State) (h : refuseAccess p off s = .next t) :
    t = s.withAnswer (.busError off) := by
  cases p <;> simp_all [refuseAccess]

theorem step_idle (s : State) (h : s.pending = []) : step s = .next s := by
  unfold step
  rw [h]

theorem step_event (s : State) (e : BusEvent) (rest : List BusEvent) (h : s.pending = e :: rest) :
    step s = serveEvent e (s.withPending rest) := by
  unfold step
  rw [h]

/-- Everything a step that goes on can have done. -/
theorem step_cases (s t : State) (h : step s = .next t) :
    (s.pending = [] ∧ t = s) ∨
    (∃ rest, s.pending = .reset :: rest ∧ t = ⟨CoreState.reset, rest, s.answers⟩) ∨
    (∃ a rest, s.pending = .access a :: rest ∧
      ((a.target = none ∧ t = ⟨s.core, rest, .busError a.off :: s.answers⟩) ∨
       (∃ r, a.target = some r ∧ a.dir = .read ∧
          t = ⟨s.core, rest, .word (readRegister r s.core) :: s.answers⟩) ∨
       (∃ r, a.target = some r ∧ a.dir = .write ∧
          t = ⟨writeRegister r a.data s.core, rest, s.answers⟩))) := by
  cases hp : s.pending with
  | nil =>
    rw [step_idle s hp] at h
    exact .inl ⟨rfl, by simpa using h.symm⟩
  | cons e rest =>
    rw [step_event s e rest hp] at h
    cases e with
    | reset =>
      refine .inr (.inl ⟨rest, rfl, ?_⟩)
      simpa [serveEvent, State.withCore, State.withPending] using h.symm
    | access a =>
      refine .inr (.inr ⟨a, rest, rfl, ?_⟩)
      simp only [serveEvent] at h
      cases hr : a.target with
      | none =>
        rw [serveAccess_refused a _ hr] at h
        exact .inl ⟨rfl, refuseAccess_next _ _ _ _ h⟩
      | some r =>
        cases hd : a.dir with
        | read =>
          rw [serveAccess_read a _ r hr hd] at h
          exact .inr (.inl ⟨r, rfl, rfl, by simpa [State.withAnswer, State.withPending] using h.symm⟩)
        | write =>
          rw [serveAccess_write a _ r hr hd] at h
          exact .inr (.inr ⟨r, rfl, rfl, by simpa [State.withCore, State.withPending] using h.symm⟩)

end Sys2Proof.Laws
end

