-- ==== Sys2Proof/Machine/HostProgram.lean ====
section
/-! DEFINITION. The notation for host programs (30_encoding.md R307, R308): WR, RD, CMD and the pseudo-instructions, each
pseudo-instruction by its expansion. Host programs run outside the core, which never stops one (R308; log 13). -/

namespace Sys2Proof.Machine

/-- A name of a host program, by number. -/
abbrev HostName := Nat

/-- The values a host program's names stand for; a 32-bit word is held zero-extended. -/
abbrev HostEnv := List (HostName × Block)

/-- A value in a statement: a literal, or the value a name stands for. -/
inductive HostValue where
  | lit (v : Block)
  | name (n : HostName)
deriving DecidableEq, Repr

/-- R307 and what R308's expansions use beside it. -/
inductive HostStmt where
  /-- WR reg, value: the low 32 bits of the value. -/
  | wr (r : Reg) (v : HostValue)
  /-- WR reg, value[63:32]: the high half, as WRKEY and WRBLK write it. -/
  | wrHigh (r : Reg) (v : HostValue)
  /-- RD reg -> name. -/
  | rd (r : Reg) (n : HostName)
  /-- CMD mnemonic. -/
  | cmd (i : Instr)
  /-- x := xh ‖ xl. -/
  | join (x xh xl : HostName)
  /-- The program requires s[7:4] = 0. -/
  | requireOk (s : HostName)
deriving DecidableEq, Repr

/-- R308: the pseudo-instructions. The names xh, xl and s are the program's own scratch names. -/
inductive PseudoInstr where
  | wrkey (k : HostValue)
  | wrblk (b : HostValue)
  | rdblk (x xh xl : HostName)
  | chkok (s : HostName)
  | enc (b : HostValue) (x xh xl : HostName)
  | dec (b : HostValue) (x xh xl : HostName)
deriving DecidableEq, Repr

/-- R308: WRBLK b. -/
def expandWrblk (b : HostValue) : List HostStmt := [.wrHigh .dinHi b, .wr .dinLo b]

/-- R308: RDBLK -> x. -/
def expandRdblk (x xh xl : HostName) : List HostStmt := [.rd .doutHi xh, .rd .doutLo xl, .join x xh xl]

/-- R308: each pseudo-instruction's expansion. -/
def expandPseudo (p : PseudoInstr) : List HostStmt :=
  match p with
  | .wrkey k => [.wrHigh .keyHi k, .wr .keyLo k]
  | .wrblk b => expandWrblk b
  | .rdblk x xh xl => expandRdblk x xh xl
  | .chkok s => [.rd .status s, .requireOk s]
  | .enc b x xh xl => expandWrblk b ++ [.cmd .encrypt] ++ expandRdblk x xh xl
  | .dec b x xh xl => expandWrblk b ++ [.cmd .decrypt] ++ expandRdblk x xh xl

/-- Why a host program stops itself. -/
inductive HostStop where
  /-- R308: CHKOK found ERR not 0. -/
  | hostDetectedError (status : Word)
  /-- A name was used before any statement gave it a value: the program is ill formed (log 13). -/
  | unboundName (n : HostName)
deriving DecidableEq, Repr

/-- The value a name stands for. -/
def lookupName (env : HostEnv) (n : HostName) : Except HostStop Block :=
  match env with
  | [] => .error (.unboundName n)
  | (m, v) :: rest => if m = n then .ok v else lookupName rest n

/-- The value of a statement's operand. -/
def evalValue (env : HostEnv) (v : HostValue) : Except HostStop Block :=
  match v with
  | .lit b => .ok b
  | .name n => lookupName env n

/-- One statement over the register window. -/
def runStmt (p : HostStmt) (env : HostEnv) (c : CoreState) : Except HostStop (HostEnv × CoreState) :=
  match p with
  | .wr r v =>
    match evalValue env v with
    | .ok b => .ok (env, writeRegister r (lo32 b) c)
    | .error e => .error e
  | .wrHigh r v =>
    match evalValue env v with
    | .ok b => .ok (env, writeRegister r (hi32 b) c)
    | .error e => .error e
  | .rd r n => .ok ((n, (readRegister r c).setWidth 64) :: env, c)
  | .cmd i => .ok (env, writeRegister .cmd (encode i) c)
  | .join x xh xl =>
    match lookupName env xh, lookupName env xl with
    | .ok h, .ok l => .ok ((x, join64 (lo32 h) (lo32 l)) :: env, c)
    | .error e, _ => .error e
    | .ok _, .error e => .error e
  | .requireOk s =>
    match lookupName env s with
    | .ok v => if v.extractLsb' 4 4 = 0#4 then .ok (env, c) else .error (.hostDetectedError (lo32 v))
    | .error e => .error e

/-- The statements of a host program, one after the other (R220). -/
def runProgram : List HostStmt → HostEnv → CoreState → Except HostStop (HostEnv × CoreState)
  | [], env, c => .ok (env, c)
  | p :: rest, env, c =>
    match runStmt p env c with
    | .ok (env', c') => runProgram rest env' c'
    | .error e => .error e

end Sys2Proof.Machine
end

