-- ==== Sys2Proof/Tests/Slice0.lean ====
section
/-! SUPPORT. Tests, each one step or one evaluation with its expected result from the spec (the vector or rule is named), and
for every statement with hypotheses a named witness that meets them. -/

namespace Sys2Proof.Tests

open Sys2Proof.Machine Sys2Proof.Safety Sys2Proof.Laws

/-! ## Helpers -/

/-- V1's key. -/
def keyV1 : Block := 0x6162636465666768#64

/-- A core that holds the schedule of a key, with V1's block in DIN. -/
def keyedCore (k : Block) : CoreState := { CoreState.reset with dinLo := 0x000000FF#32, rk := some (keySchedule k) }

/-- A machine with V1's schedule and block and the given events to serve. -/
def keyed (es : List BusEvent) : State := ⟨keyedCore keyV1, es, []⟩

/-- A write of a word to CMD. -/
def cmdWrite (w : Word) : BusEvent := .access ⟨.write, 0x10, 32, w⟩

/-- The core after a step that went on. -/
def coreAfter (o : Host.Outcome State Fault Refusal) : Option CoreState :=
  match o with
  | .next s => some s.core
  | .fault _ => none
  | .refused _ => none

/-- What the host has after a step that went on. -/
def answersAfter (o : Host.Outcome State Fault Refusal) : Option (List Answer) :=
  match o with
  | .next s => some s.answers
  | .fault _ => none
  | .refused _ => none

/-- DOUT, STATUS and ERR after a step that went on. -/
def resultAfter (o : Host.Outcome State Fault Refusal) : Option (Word × Word × Word) :=
  (coreAfter o).map (fun c => (c.doutHi, c.doutLo, c.statusWord))

/-! ## Well-formedness and decoding -/

/-- R300: RSVD not zero; the word of V27 step 4 and of step 9. -/
theorem test_wf_refuses_reserved_bits :
    cmdWordReservedZero 0x00000012#32 = false ∧ cmdWordWf 0x00000012#32 = false ∧ cmdWordWf 0x80000001#32 = false := by decide

/-- R301: OP names no command; the words of V27 steps 3 and 8. -/
theorem test_wf_refuses_unnamed_op :
    cmdWordOpNamed 0x00000000#32 = false ∧ cmdWordOpNamed 0x00000004#32 = false ∧ cmdWordWf 0x0000000F#32 = false := by decide

/-- R301: the three words are well formed. -/
theorem test_wf_accepts_commands :
    cmdWordWf 0x00000001#32 = true ∧ cmdWordWf 0x00000002#32 = true ∧ cmdWordWf 0x00000003#32 = true := by decide

/-- R303: the illegal words of V27, by the reason they are illegal. -/
theorem test_decode_illegal_words :
    decode 0x00000000#32 = .error .reservedOp ∧ decode 0x00000004#32 = .error .reservedOp ∧
    decode 0xFFFFFFFF#32 = .error .reservedOp ∧ decode 0x00000012#32 = .error .reservedBits ∧
    decode 0x80000001#32 = .error .reservedBits := ⟨rfl, rfl, rfl, rfl, rfl⟩

/-- R301: the words of the opcode table. -/
theorem test_encode_words :
    encode .loadKey = 0x00000001#32 ∧ encode .encrypt = 0x00000002#32 ∧ encode .decrypt = 0x00000003#32 := by decide

/-- V28: refused accesses. -/
theorem test_admission_refuses :
    Transaction.admitted ⟨.read, 0x16, 32, 0#32⟩ = false ∧ Transaction.admitted ⟨.write, 0x14, 8, 0xFF#32⟩ = false ∧
    Transaction.admitted ⟨.read, 0x18, 16, 0#32⟩ = false ∧ Transaction.admitted ⟨.write, 0x12, 16, 1#32⟩ = false ∧
    Transaction.admitted ⟨.write, 0x01, 32, 0#32⟩ = false ∧ Transaction.admitted ⟨.read, 0x20, 32, 0#32⟩ = false := by decide

/-! ## The units -/

/-- V12: IP and RIP. -/
theorem test_ip_rip :
    initialPermutation 0x0123456789ABCDEF#64 = 0xCC00CCFFF0AAF0AA#64 ∧
    initialPermutation 0x8000000000000000#64 = 0x0000000001000000#64 ∧
    inverseInitialPermutation 0xEE24020DDED336A4#64 = 0x21ECDBC1A85AE0E2#64 := by decide +kernel

/-- V12: E and P. -/
theorem test_e_p :
    expansion 0xF0AAF0AA#32 = 0x7A15557A1555#48 ∧ expansion 0x00000001#32 = 0x800000000002#48 ∧
    roundPermutation 0x5C82B597#32 = 0x234AA9BB#32 ∧ roundPermutation 0x00000001#32 = 0x00000800#32 := by decide +kernel

/-- V12: PC-1 and PC-2. -/
theorem test_pc1_pc2 :
    hi28 (permutedChoice1 0x133457799BBCDFF1#64) = 0xF0CCAAF#28 ∧ lo28 (permutedChoice1 0x133457799BBCDFF1#64) = 0x556678F#28 ∧
    permutedChoice1 0x0101010101010101#64 = 0#56 ∧
    permutedChoice2 (join56 0xE19955F#28 0xAACCF1E#28) = 0x1B02EFFC7072#48 := by decide +kernel

/-- V13 and R613: the substitution and a lookup. -/
theorem test_sboxes :
    substitute 0x000000000000#48 = 0xEFA72C4D#32 ∧ substitute 0xFFFFFFFFFFFF#48 = 0xD9CE3DCB#32 ∧
    substitute 0x6117BA866527#48 = 0x5C82B597#32 ∧ sboxLookup (sboxTable 1) 0b011011#6 = 5#4 := by decide +kernel

/-- V22 and V21a: slots of two schedules, round 9 (a single shift) among them. -/
theorem test_key_schedule :
    (keySchedule keyV1)[0] = 0xE0BE66132A82#48 ∧ (keySchedule keyV1)[8] = 0x1F49D94A9840#48 ∧
    (keySchedule 0x133457799BBCDFF1#64)[0] = 0x1B02EFFC7072#48 ∧
    (keySchedule 0x133457799BBCDFF1#64)[15] = 0xCB3D8B0E17F5#48 := by decide +kernel

/-- V16: f, a round and its inverse. -/
theorem test_round :
    roundFunction 0xF0AAF0AA#32 0x1B02EFFC7072#48 = 0x234AA9BB#32 ∧
    feistelRound (0x80808080#32, 0x80808080#32) 0xE0BE66132A82#48 = (0x80808080#32, 0xFA7B582E#32) ∧
    feistelUnround (0xF0AAF0AA#32, 0xEF4A6544#32) 0x1B02EFFC7072#48 = (0xCC00CCFF#32, 0xF0AAF0AA#32) := by decide +kernel

/-- V20: the pair after round 16, before the swap and RIP. -/
theorem test_rounds_trace :
    runRounds (initialHalves 0x00000000000000FF#64) (keyOrder .enc (keySchedule keyV1)) = (0xDED336A4#32, 0xEE24020D#32) := by
  decide +kernel

/-- V21: another key and block. -/
theorem test_block_transform :
    blockTransform 0x0123456789ABCDEF#64 (keySchedule 0x133457799BBCDFF1#64) .enc = 0x85E813540F0AB405#64 := by decide +kernel

/-- V10: byte order. -/
theorem test_byte_order :
    bytesToU64 [0x61#8, 0x62#8, 0x63#8, 0x64#8, 0x65#8, 0x66#8, 0x67#8, 0x68#8] = keyV1 ∧
    u64ToBytes 0x21ECDBC1A85AE0E2#64 = [0x21#8, 0xEC#8, 0xDB#8, 0xC1#8, 0xA8#8, 0x5A#8, 0xE0#8, 0xE2#8] := by decide +kernel

/-! ## The commands, one step each -/

/-- V17: LOAD_KEY clears the latches and DOUT, keeps DIN, and sets KEY_VALID. -/
theorem test_loadKey :
    (coreAfter (exec .loadKey
      ⟨⟨0x13345779#32, 0x9BBCDFF1#32, 0x01234567#32, 0x89ABCDEF#32, 0x11111111#32, 0x22222222#32, none, true, 2#4⟩, [], []⟩)).map
        (fun c => (c.keyHi, c.keyLo, c.dinHi, c.dinLo, c.doutHi, c.doutLo, c.statusWord)) =
      some (0#32, 0#32, 0x01234567#32, 0x89ABCDEF#32, 0#32, 0#32, 0x00000001#32) := by decide +kernel

/-- V17, V21a: the schedule LOAD_KEY leaves. -/
theorem test_loadKey_schedule :
    (coreAfter (exec .loadKey
      ⟨{ CoreState.reset with keyHi := 0x13345779#32, keyLo := 0x9BBCDFF1#32 }, [], []⟩)).bind
        (fun c => c.rk.map (fun rk => rk[1])) = some 0x79AED9DBC9E5#48 := by decide +kernel

/-- V1: the source's known-answer encryption, as a step that serves the CMD write. -/
theorem test_encrypt_known_answer :
    resultAfter (step (keyed [cmdWrite 0x00000002#32])) = some (0x21ECDBC1#32, 0xA85AE0E2#32, 0x00000003#32) := by decide +kernel

/-- V27 step 1: ENCRYPT right after reset. -/
theorem test_encrypt_no_key :
    resultAfter (step (State.reset.withFetchWord 32 2)) = some (0#32, 0#32, 0x00000020#32) := by decide +kernel

/-- V2: the source's known-answer decryption. -/
theorem test_decrypt_known_answer :
    resultAfter (exec .decrypt
      ⟨{ keyedCore keyV1 with dinHi := 0x21ECDBC1#32, dinLo := 0xA85AE0E2#32 }, [], []⟩) =
      some (0x00000000#32, 0x000000FF#32, 0x00000003#32) := by decide +kernel

/-- V27 step 2: DECRYPT without a key. -/
theorem test_decrypt_no_key :
    resultAfter (step (State.reset.withFetchWord 32 3)) = some (0#32, 0#32, 0x00000020#32) := by decide +kernel

/-- V27 steps 4 and 8: ILLEGAL_CMD beats NO_KEY, and leaves DOUT and DOUT_VALID. -/
theorem test_illegal_cmd :
    resultAfter (step (State.reset.withFetchWord 32 0x12)) = some (0#32, 0#32, 0x00000010#32) ∧
    (cmdStep { keyedCore keyV1 with doutHi := 7#32, doutValid := true } 0x00000004#32).statusWord = 0x00000013#32 := by
  decide +kernel

/-! ## Register accesses -/

/-- V29: a write to KEY_HI latches it, and reading it gives 0. -/
theorem test_key_is_write_only :
    (coreAfter (step (keyed [.access ⟨.write, 0x00, 32, 0x61626364#32⟩]))).map (fun c => (c.keyHi, readRegister .keyHi c)) =
      some (0x61626364#32, 0#32) := by decide +kernel

/-- V29: writes to read-only registers are accepted and ignored. -/
theorem test_read_only_writes_ignored :
    (coreAfter (step (keyed [.access ⟨.write, 0x14, 32, 0xFFFFFFFF#32⟩]))).map (fun c => c.statusWord) = some 0x00000001#32 ∧
    (coreAfter (step (keyed [.access ⟨.write, 0x18, 32, 0x12345678#32⟩]))).map (fun c => c.doutHi) = some 0#32 := by
  decide +kernel

/-- R1001: a read of DIN_LO and of STATUS. -/
theorem test_reads :
    answersAfter (step (keyed [.access ⟨.read, 0x0C, 32, 0#32⟩])) = some [.word 0x000000FF#32] ∧
    answersAfter (step (keyed [.access ⟨.read, 0x14, 32, 0#32⟩])) = some [.word 0x00000001#32] := by decide +kernel

/-- V30: the reset input ends the instance. -/
theorem test_reset_input : (coreAfter (step (keyed [.reset]))).map (fun c => c.statusWord) = some 0#32 := by decide +kernel

/-! ## The façade and the notation -/

/-- V7, V8: lengths 66 and 9. -/
theorem test_facade_lengths :
    facadeEncrypt (List.replicate 66 0#8) CoreState.reset = .error .invalidDataLength ∧
    facadeConstruct (List.replicate 9 0#8) CoreState.reset = .error .invalidKeyLength := ⟨rfl, rfl⟩

/-- R308: ENC b -> x is WRBLK b ; CMD ENCRYPT ; RDBLK -> x. -/
theorem test_expand_enc :
    expandPseudo (.enc (.lit 5#64) 0 1 2) =
      [.wrHigh .dinHi (.lit 5#64), .wr .dinLo (.lit 5#64), .cmd .encrypt, .rd .doutHi 1, .rd .doutLo 2, .join 0 1 2] := by decide

/-- A byte written over another, and a default byte written, keep host memory canonical. -/
theorem test_host_memory :
    memWrite [(3, 1#8), (5, 2#8)] 4 7#8 = [(3, 1#8), (4, 7#8), (5, 2#8)] ∧ memWrite [(3, 1#8)] 3 0#8 = [] ∧
    hostMemoryWf [(5, 1#8), (3, 2#8)] = false ∧ hostMemoryWf [(3, 0#8)] = false := by decide

/-! ## Witnesses of the statements' hypotheses -/

theorem witness_ResetInputWhateverTheCoreHeld : (keyed [.reset]).pending = .reset :: [] := rfl

theorem witness_IdleCoreKeepsItsState : (keyed []).pending = [] := rfl

/-- The clause for the words that name no command, at its lowest words. -/
theorem witness_DecodeReadsTheCommandTable :
    (0x00000000#32 ≠ 0x00000001#32 ∧ 0x00000000#32 ≠ 0x00000002#32 ∧ 0x00000000#32 ≠ 0x00000003#32) ∧
    (0x00000004#32 ≠ 0x00000001#32 ∧ 0x00000004#32 ≠ 0x00000002#32 ∧ 0x00000004#32 ≠ 0x00000003#32) := by decide

theorem witness_CommandAndWordDetermineEachOther : decode 0x00000002#32 = .ok .encrypt := rfl

theorem witness_IllegalWordsOnlySetErr :
    (∃ e, decode 0x00000000#32 = .error e) ∧ ∃ e, decode 0x00000012#32 = .error e := ⟨⟨_, rfl⟩, ⟨_, rfl⟩⟩

/-- The two directions, a core without a key and one with, and a word that names no command. -/
theorem witness_CmdStepHasTheSpecsFourCases :
    ((0x00000002#32 = 0x00000002#32 ∧ Direction.enc = .enc) ∨ (0x00000002#32 = 0x00000003#32 ∧ Direction.enc = .dec)) ∧
    ((0x00000003#32 = 0x00000002#32 ∧ Direction.dec = .enc) ∨ (0x00000003#32 = 0x00000003#32 ∧ Direction.dec = .dec)) ∧
    CoreState.reset.rk = none ∧ (keyedCore keyV1).rk = some (keySchedule keyV1) ∧
    (0x00000004#32 ≠ 0x00000001#32 ∧ 0x00000004#32 ≠ 0x00000002#32 ∧ 0x00000004#32 ≠ 0x00000003#32) :=
  ⟨.inl ⟨rfl, rfl⟩, .inr ⟨rfl, rfl⟩, rfl, rfl, by decide⟩

theorem witness_EncryptCompletesWithAKey : (keyed []).core.rk = some (keySchedule keyV1) := rfl

theorem witness_DecryptCompletesWithAKey : (keyed [.reset]).core.rk = some (keySchedule keyV1) := rfl

theorem witness_CipherWithoutKeyRecordsNoKey : State.reset.core.keyValid = false := rfl

/-- A cipher command with a key, one without, and LOAD_KEY. -/
theorem witness_CommandFrames :
    (∃ t, exec .encrypt (keyed []) = .next t) ∧
    ((∃ t, exec .decrypt State.reset = .next t) ∧ State.reset.core.keyValid = false) ∧
    ∃ t, exec .loadKey (keyed []) = .next t :=
  ⟨⟨_, exec_eq _ _⟩, ⟨⟨_, exec_eq _ _⟩, rfl⟩, ⟨_, exec_eq _ _⟩⟩

theorem witness_StepRunsTheDecodedCommand :
    ((keyed [cmdWrite 0x00000002#32]).pending = .access ⟨.write, 0x10, 32, 0x00000002#32⟩ :: [] ∧
      decode 0x00000002#32 = .ok .encrypt) ∧
    decodeTableWord 32 0x00000001 = some .loadKey := ⟨⟨rfl, rfl⟩, rfl⟩

theorem witness_RepeatedCipherCommandChangesNothing :
    (∃ t, exec .encrypt (keyed []) = .next t) ∧ ∃ t, exec .decrypt State.reset = .next t :=
  ⟨⟨_, exec_eq _ _⟩, ⟨_, exec_eq _ _⟩⟩

theorem witness_SecondLoadKeyLoadsTheZeroKey :
    ∃ t u, exec .loadKey (keyed []) = .next t ∧ exec .loadKey t = .next u := ⟨_, _, exec_eq _ _, exec_eq _ _⟩

/-- The last offset of a table's clauses, and one of the clause of three. -/
theorem witness_HostWritesFollowTheTable :
    (0x1C = 0x14 ∨ 0x1C = 0x18 ∨ 0x1C = 0x1C) ∧ (0x14 = 0x14 ∨ 0x14 = 0x18 ∨ 0x14 = 0x1C) ∧
    ¬ (8 = 32 ∧ 0x1C % 4 = 0 ∧ 0x1C ≤ 0x1C) ∧ ¬ (32 = 32 ∧ 0x20 % 4 = 0 ∧ 0x20 ≤ 0x1C) := by decide

/-- The clause of the writes that leave STATUS: a write to the last register. -/
theorem witness_HostWritesFollowTheTable_status :
    0x1C ≠ 0x10 ∧ ∃ c r, hostStep (keyedCore keyV1) ⟨.write, 0x1C, 32, 5#32⟩ = .ok (c, r) := ⟨by decide, _, _, rfl⟩

theorem witness_HostReadsFollowTheTable :
    (0x00 = 0x00 ∨ 0x00 = 0x04 ∨ 0x00 = 0x10) ∧ (0x10 = 0x00 ∨ 0x10 = 0x04 ∨ 0x10 = 0x10) := by decide

theorem witness_StepServesOneHostStep :
    (keyed [.access (readAccess .dinLo)]).pending = .access (readAccess .dinLo) :: [] ∧
    hostStep (keyedCore keyV1) (readAccess .dinLo) = .ok (keyedCore keyV1, some 0x000000FF#32) := by
  refine ⟨rfl, ?_⟩
  unfold hostStep
  rw [target_readAccess]
  rfl

/-- The highest admitted offset, and one refused access for each reason. -/
theorem witness_AdmissionDecidesBusError :
    (32 = 32 ∧ 0x1C % 4 = 0 ∧ 0x1C ≤ 0x1C) ∧ ¬ (32 = 32 ∧ 0x20 % 4 = 0 ∧ 0x20 ≤ 0x1C) ∧
    ¬ (32 = 32 ∧ 0x16 % 4 = 0 ∧ 0x16 ≤ 0x1C) ∧ ¬ (16 = 32 ∧ 0x18 % 4 = 0 ∧ 0x18 ≤ 0x1C) := by decide

theorem witness_RefusedAccessNeverTouchesTheCore :
    (keyed [.access ⟨.read, 0x16, 32, 0#32⟩]).pending = .access ⟨.read, 0x16, 32, 0#32⟩ :: [] ∧
    ¬ (32 = 32 ∧ 0x16 % 4 = 0 ∧ 0x16 ≤ 0x1C) := ⟨rfl, by decide⟩

theorem witness_ReadsAreIdempotent :
    (keyed [.access (readAccess .status), .access (readAccess .status)]).pending =
      .access (readAccess .status) :: .access (readAccess .status) :: [] ∧
    (readAccess .status).dir = .read ∧ (readAccess .status).target = some .status := ⟨rfl, rfl, target_readAccess _⟩

/-- The last byte of the window, the bytes on either side of it, and an access at its last register. -/
theorem witness_WindowAtEveryBase :
    0x1F < 0x20 ∧ (0xFFF < 0x1000 ∨ 0x1000 + 0x20 ≤ 0xFFF) ∧ (0x1020 < 0x1000 ∨ 0x1000 + 0x20 ≤ 0x1020) ∧
    addressedAccess 0x1000 .read 0x101C 32 0#32 = some ⟨.read, 0x1C, 32, 0#32⟩ := by decide

theorem witness_MachineServesAccessesInOrder :
    (keyed [.access (writeAccess .dinHi 5#32), .access (readAccess .dinHi), .reset]).pending =
      accessEvents [writeAccess .dinHi 5#32, readAccess .dinHi] ++ [.reset] ∧
    hostSteps [writeAccess .dinHi 5#32, readAccess .dinHi] (keyedCore keyV1, []) =
      .ok ({ keyedCore keyV1 with dinHi := 5#32 }, [.word 5#32]) := by
  refine ⟨rfl, ?_⟩
  simp only [hostSteps, hostStep, target_writeAccess, target_readAccess]
  rfl

theorem step_keyed_reset : step (keyed [.reset]) = .next ⟨CoreState.reset, [], []⟩ := by
  rw [step_event (keyed [.reset]) .reset [] rfl]
  rfl

/-- The next event is the reset input, and the step goes on: for the statements about what changes each register. -/
theorem witness_next_resets : nextResets (keyed [.reset]) ∧ ∃ t, step (keyed [.reset]) = .next t :=
  ⟨rfl, _, step_keyed_reset⟩

/-- KeyValidFollowsLoadKeyAndReset's clause about a list of events served to its end. -/
theorem witness_events_served :
    (keyed [.reset]).pending = [.reset] ∧
    Host.Core.run Sys2Proof.core [BusEvent.reset].length (keyed [.reset]) = .next (⟨CoreState.reset, [], []⟩ : State) := by
  refine ⟨rfl, ?_⟩
  show (match step (keyed [.reset]) with
    | .next s' => Host.Core.run Sys2Proof.core 0 s'
    | .fault r => .fault r
    | .refused r => .refused r) = _
  rw [step_keyed_reset]
  rfl

/-- The next event writes a word to a register, and the step goes on: every register and every word, hence each command word,
each illegal word and each register access of those statements. -/
theorem witness_next_writes (r : Reg) (w : Word) :
    nextWrites (keyed [.access (writeAccess r w)]) r w ∧ ¬ nextResets (keyed [.access (writeAccess r w)]) ∧
    ∃ t, step (keyed [.access (writeAccess r w)]) = .next t := by
  refine ⟨⟨_, rfl, _, rfl, rfl, target_writeAccess r w, rfl⟩, by simp [nextResets, keyed],
    ⟨writeRegister r w (keyedCore keyV1), [], []⟩, ?_⟩
  rw [step_event (keyed [.access (writeAccess r w)]) _ [] rfl]
  exact serveAccess_write _ _ r (target_writeAccess r w) rfl

/-- The next event neither resets nor writes CMD, and the step goes on. -/
theorem witness_next_leaves :
    ¬ nextResets (keyed [.access (readAccess .status)]) ∧
    (∀ w, ¬ nextWrites (keyed [.access (readAccess .status)]) .cmd w) ∧
    ∃ t, step (keyed [.access (readAccess .status)]) = .next t := by
  refine ⟨by simp [nextResets, keyed], ?_,
    ⟨keyedCore keyV1, [], [.word (readRegister .status (keyedCore keyV1))]⟩, ?_⟩
  · rintro w ⟨e, he, t, rfl, hd, -⟩
    simp only [keyed, List.head?_cons, Option.some.injEq, BusEvent.access.injEq] at he
    subst he
    cases hd
  · rw [step_event (keyed [.access (readAccess .status)]) _ [] rfl]
    exact serveAccess_read _ _ .status (target_readAccess _) rfl

/-- A step of LOAD_KEY from reset changes RK. -/
theorem witness_ScheduleChangesOnlyAtLoadKeyAndReset :
    ∃ t, step (State.reset.withFetchWord 32 1) = .next t ∧ t.core.rk ≠ State.reset.core.rk := by
  refine ⟨⟨cmdStep CoreState.reset (tableWord 32 1), [], []⟩, ?_, ?_⟩
  · rw [step_event (State.reset.withFetchWord 32 1) _ [] rfl]
    show serveAccess (writeAccess .cmd (tableWord 32 1)) State.reset = _
    rw [serveAccess_write _ _ .cmd (target_writeAccess .cmd _) rfl]
    simp only [writeRegister, writeAccess, State.withCore, State.reset]
  · show (cmdStep CoreState.reset (tableWord 32 1)).rk ≠ none
    rw [show tableWord 32 1 = 0x00000001#32 by decide, cmdStep_loadKey]
    simp [loadKeyEffect]

/-- V1: a step of ENCRYPT changes DOUT. -/
theorem witness_ResultLivesUntilTheNextCommand :
    (coreAfter (step (keyed [cmdWrite 0x00000002#32]))).map (fun c => decide (c.doutHi ≠ 0#32)) = some true := by
  decide +kernel

/-- A write to each operand register changes it, and LOAD_KEY changes a key latch that is not 0. -/
theorem witness_OperandRegistersBelongToTheHost :
    (writeRegister .keyHi 1#32 (keyedCore keyV1)).keyHi ≠ (keyedCore keyV1).keyHi ∧
    (writeRegister .keyLo 1#32 (keyedCore keyV1)).keyLo ≠ (keyedCore keyV1).keyLo ∧
    (writeRegister .dinHi 1#32 (keyedCore keyV1)).dinHi ≠ (keyedCore keyV1).dinHi ∧
    (writeRegister .dinLo 1#32 (keyedCore keyV1)).dinLo ≠ (keyedCore keyV1).dinLo ∧
    (loadKeyEffect { keyedCore keyV1 with keyHi := 1#32 }).keyHi ≠ 1#32 := by
  refine ⟨by decide, by decide, by decide, by decide, ?_⟩
  simp [loadKeyEffect]

theorem witness_ReservedCodesNeverAppear :
    (keyed [.reset]).core.err.toNat ≤ 2 ∧ ∃ t, step (keyed [.reset]) = .next t :=
  ⟨by decide, _, step_keyed_reset⟩

/-- What the ledger says of the core of `keyed`. -/
def ledgerV1 : Ledger := ⟨0#32, 0#32, 0#32, 0x000000FF#32, some keyV1, none⟩

theorem ledgerV1_describes : ledgerV1.describes (keyedCore keyV1) where
  keyHi := rfl
  keyLo := rfl
  dinHi := rfl
  dinLo := rfl
  schedule := rfl
  valid := rfl
  result := fun _ _ h => by cases h
  clear := fun _ => ⟨rfl, rfl⟩

/-- A machine with a schedule meets the invariant, a ledger describes it, and a step of it goes on. -/
theorem witness_StepKeepsTheCoreInvariant :
    MachineInv (keyed [.reset]) ∧ ledgerV1.describes (keyed [.reset]).core ∧ ∃ t, step (keyed [.reset]) = .next t := by
  refine ⟨⟨.inl rfl, ?_, ?_, fun _ => ⟨rfl, rfl⟩⟩, ledgerV1_describes, _, step_keyed_reset⟩
  · intro rk h
    exact ⟨keyV1, (Option.some.inj h).symm⟩
  · intro h
    cases h

/-- V1 and then a LOAD_KEY: what the ledger says after the host's accesses, by hand from R710 and R910. -/
theorem test_ledger :
    let es : List BusEvent := accessEvents [writeAccess .keyHi 0x61626364#32, writeAccess .keyLo 0x65666768#32,
      commandAccess .loadKey, writeAccess .dinLo 0xFF#32, commandAccess .encrypt, writeAccess .dinLo 1#32]
    es.foldl Ledger.serve Ledger.reset = ⟨0#32, 0#32, 0#32, 1#32, some keyV1, some (.enc, 0xFF#64)⟩ ∧
    ((es ++ [cmdWrite 1#32]).foldl Ledger.serve Ledger.reset).last = none := by decide +kernel

/-- An event list served to its end from a core a ledger describes (with `witness_events_served`), a ledger with a result, a
cipher command that succeeds and one that fails. -/
theorem witness_DoutIsTheLastResultOverEvents :
    ledgerV1.describes (keyed [.reset]).core ∧
    ([cmdWrite 2#32].foldl Ledger.serve ledgerV1).last = some (.enc, 0xFF#64) ∧
    (cmdStep (keyedCore keyV1) 2#32).err = 0#4 ∧ (cmdStep CoreState.reset 2#32).err ≠ 0#4 := by
  refine ⟨ledgerV1_describes, by decide, ?_, ?_⟩
  · rw [cmdStep_encrypt, cipherEffect_key (h := by exact rfl)]
    rfl
  · rw [cmdStep_encrypt, cipherEffect_noKey (h := by exact rfl)]
    decide

/-- Two machines with different key latches and schedules that the host cannot tell apart, and a read to come. -/
theorem witness_KeyMaterialStaysHidden :
    hostCannotTell ⟨keyedCore keyV1, [.access (readAccess .status)], []⟩
      ⟨{ keyedCore 0x133457799BBCDFF1#64 with keyHi := 1#32 }, [.access (readAccess .status)], []⟩ ∧
    (∀ w, ¬ nextWrites ⟨keyedCore keyV1, [.access (readAccess .status)], []⟩ .cmd w) ∧
    (keySchedule keyV1)[0] ≠ (keySchedule 0x133457799BBCDFF1#64)[0] := by
  refine ⟨⟨?_, rfl, rfl⟩, witness_next_leaves.2.1, by decide +kernel⟩
  simp [hostView, CoreState.statusWord, CoreState.keyValid, keyedCore]

/-- The ends of the ranges of the table statements: RipInvertsIp and TablesInBothFormsAgree. -/
theorem witness_table_positions : (1 ≤ 1 ∧ 1 ≤ 64) ∧ (1 ≤ 64 ∧ 64 ≤ 64) ∧ (1 ≤ 56 ∧ 56 ≤ 56) ∧ (1 ≤ 48 ∧ 48 ≤ 48) ∧
    (1 ≤ 32 ∧ 32 ≤ 32) := by decide

/-- The ends of the ranges of the S-box statements: SboxRowsArePermutations, FlatSboxesAreTheSameFunction and
SubstitutionActsPerGroup, with the two 24-bit halves' clauses. -/
theorem witness_sbox_numbers : (1 ≤ 1 ∧ 1 ≤ 8 ∧ 1 ≤ 4) ∧ (1 ≤ 4 ∧ 4 ≤ 8 ∧ 4 ≤ 4) ∧ (1 ≤ 5 ∧ 5 ≤ 8 ∧ 5 ≤ 5) ∧
    (1 ≤ 8 ∧ 8 ≤ 8 ∧ 5 ≤ 8) ∧ 5 < 6 ∧ 3 < 4 ∧ ([14, 4, 13, 1, 2, 15, 11, 8, 3, 10, 6, 12, 5, 9, 0, 7] ∈ sboxTable 1) := by decide

/-- The ends of the ranges of rounds: KeyHalvesRotateCumulatively, RoundKeysComeFromRotatedHalves and
RoundKeyOrderOfEachDirection. -/
theorem witness_round_numbers : (1 ≤ 1 ∧ 1 ≤ 16) ∧ (1 ≤ 16 ∧ 16 ≤ 16) ∧ (0 < 28 ∧ 27 < 28) := by decide

/-- R701: bit 27 re-enters at bit 0, and no other bit moves to it. -/
theorem test_rotl28 : rotl28 0x8000001#28 1 = 0x0000003#28 ∧ rotl28 0xC000000#28 2 = 0x0000003#28 := by decide

/-- V11: two keys that differ in parity bits alone. -/
theorem witness_ScheduleIgnoresParityBits :
    (∀ n, n ≤ 64 → 1 ≤ n → n ∉ parityPositions → fips 0x6062626465666768#64 n = fips keyV1 n) ∧
    0x6062626465666768#64 ≠ keyV1 := by decide +kernel

/-- V15: the weak keys, one for each combination of the clauses. -/
theorem witness_WeakKeysMakeEncryptionAnInvolution :
    (hi28 (permutedChoice1 0x0101010101010101#64) = 0#28 ∧ lo28 (permutedChoice1 0x0101010101010101#64) = 0#28) ∧
    (hi28 (permutedChoice1 0xFEFEFEFEFEFEFEFE#64) = 0xFFFFFFF#28 ∧ lo28 (permutedChoice1 0xFEFEFEFEFEFEFEFE#64) = 0xFFFFFFF#28) ∧
    (hi28 (permutedChoice1 0x1F1F1F1F0E0E0E0E#64) = 0#28 ∧ lo28 (permutedChoice1 0x1F1F1F1F0E0E0E0E#64) = 0xFFFFFFF#28) ∧
    (hi28 (permutedChoice1 0xE0E0E0E0F1F1F1F1#64) = 0xFFFFFFF#28 ∧ lo28 (permutedChoice1 0xE0E0E0E0F1F1F1F1#64) = 0#28) := by
  decide +kernel

theorem witness_OtherCommandRestoresTheBlock :
    ((Instr.encrypt = .encrypt ∧ Instr.decrypt = .decrypt) ∨ (Instr.encrypt = .decrypt ∧ Instr.decrypt = .encrypt)) ∧
    ((Instr.decrypt = .encrypt ∧ Instr.encrypt = .decrypt) ∨ (Instr.decrypt = .decrypt ∧ Instr.encrypt = .encrypt)) ∧
    (keyed []).core.keyValid = true ∧ (∃ t, exec .encrypt (keyed []) = .next t) ∧ ∃ t, exec .decrypt (keyed []) = .next t :=
  ⟨.inl ⟨rfl, rfl⟩, .inr ⟨rfl, rfl⟩, rfl, ⟨_, exec_eq _ _⟩, ⟨_, exec_eq _ _⟩⟩

/-- V1's key and block. -/
theorem witness_BootOrderGivesTheCipher :
    ((Instr.encrypt = .encrypt ∧ Direction.enc = .enc) ∨ (Instr.encrypt = .decrypt ∧ Direction.enc = .dec)) ∧
    ((Instr.decrypt = .encrypt ∧ Direction.dec = .enc) ∨ (Instr.decrypt = .decrypt ∧ Direction.dec = .dec)) ∧
    ∃ s : State, s.pending = accessEvents
      [writeAccess .keyHi (hi32 keyV1), writeAccess .keyLo (lo32 keyV1), commandAccess .loadKey,
       writeAccess .dinHi (hi32 0xFF#64), writeAccess .dinLo (lo32 0xFF#64), commandAccess .encrypt,
       readAccess .doutHi, readAccess .doutLo, readAccess .status] ++ [.reset] :=
  ⟨.inl ⟨rfl, rfl⟩, .inr ⟨rfl, rfl⟩, State.reset.withPending _, rfl⟩

/-- V7, V8: the lengths the spec names. -/
theorem witness_FacadeChecksLengthsFirst :
    (List.replicate 9 0#8 : ByteString).length ≠ 8 ∧ (List.replicate 66 0#8 : ByteString).length % 8 ≠ 0 := by decide

theorem witness_FacadeNeverSeesAnErrorCode :
    (∃ c, facadeConstruct (List.replicate 8 1#8) CoreState.reset = .ok c) ∧
    ((keyedCore keyV1).keyValid = true ∧ (keyedCore keyV1).err = 0#4) ∧
    (∃ out c, facadeEncrypt (List.replicate 8 1#8) (keyedCore keyV1) = .ok (out, c)) ∧
    ∃ out c, facadeDecrypt (List.replicate 16 1#8) (keyedCore keyV1) = .ok (out, c) := by
  refine ⟨⟨_, rfl⟩, ⟨rfl, rfl⟩, ?_, ?_⟩
  · refine ⟨(chunkSequence .encrypt 1 (List.replicate 8 1#8) (keyedCore keyV1)).1, (chunkSequence .encrypt 1 (List.replicate 8 1#8) (keyedCore keyV1)).2, ?_⟩
    unfold facadeEncrypt facadeCipher
    rw [if_neg (by decide), if_neg (by decide)]
    simp only [List.length_replicate]
  · refine ⟨(chunkSequence .decrypt 2 (List.replicate 16 1#8) (keyedCore keyV1)).1, (chunkSequence .decrypt 2 (List.replicate 16 1#8) (keyedCore keyV1)).2, ?_⟩
    unfold facadeDecrypt facadeCipher
    rw [if_neg (by decide), if_neg (by decide)]
    simp only [List.length_replicate]

/-- A key of 8 bytes; and a core in the middle of an instance, with a failed command behind it, and data of two chunks. -/
theorem witness_FacadeEncryptsBlockByBlock :
    (List.replicate 8 1#8 : ByteString).length = 8 ∧
    ({ keyedCore (bytesToU64 (List.replicate 8 1#8)) with doutValid := true, err := 1#4 } : CoreState).rk =
      some (keySchedule (bytesToU64 (List.replicate 8 1#8))) ∧
    (List.replicate 16 1#8 : ByteString).length = 8 * 2 := ⟨rfl, rfl, rfl⟩

/-- V1's block at address 8 of an otherwise empty memory, encrypted in place. -/
theorem witness_MemoryFacadeWritesOnlyItsOutput :
    hostMemoryWf [(15, 0xFF#8)] = true ∧
    (match cipherInMemory .encrypt [(15, 0xFF#8)] 8 8 8 (keyedCore keyV1) with
      | .ok out => some (memReadBytes out.1 8 8)
      | .error _ => none) = some [0x21#8, 0xEC#8, 0xDB#8, 0xC1#8, 0xA8#8, 0x5A#8, 0xE0#8, 0xE2#8] ∧
    (7 < 8 ∨ 8 + 8 ≤ 7) ∧ (16 < 8 ∨ 8 + 8 ≤ 16) := by decide +kernel

end Sys2Proof.Tests
end

section
/-! PROOF. The fields of the STATUS word (10_state.md R107, R113, R114, R116). -/

namespace Sys2Proof.Proofs

open Sys2Proof.Machine

/-- R107: every bit of STATUS, by its position; above bit 7 it is a bit that ERR does not have, hence 0. -/
theorem getLsbD_statusWord (c : CoreState) (i : Nat) :
    c.statusWord.getLsbD i =
      if i = 0 then c.keyValid else if i = 1 then c.doutValid else if i < 4 then false else c.err.getLsbD (i - 4) := by
  simp only [CoreState.statusWord, BitVec.getLsbD_setWidth, BitVec.getLsbD_append, BitVec.getLsbD_ofBool]
  match i with
  | 0 | 1 | 2 | 3 => simp
  | j + 4 =>
    suffices c.err.getLsbD j = true → j + 4 < 32 by simpa
    intro hj
    have := BitVec.lt_of_getLsbD hj
    omega

/-- STATUS[0] is KEY_VALID. -/
theorem statusWord_bit0 (c : CoreState) : c.statusWord.getLsbD 0 = c.keyValid := getLsbD_statusWord c 0

/-- STATUS[1] is DOUT_VALID. -/
theorem statusWord_bit1 (c : CoreState) : c.statusWord.getLsbD 1 = c.doutValid := getLsbD_statusWord c 1

/-- STATUS[3:2] is reserved. -/
theorem statusWord_bits3_2 (c : CoreState) : c.statusWord.extractLsb' 2 2 = 0#2 := by
  ext i hi
  rw [BitVec.getElem_extractLsb', getLsbD_statusWord, if_neg (by omega), if_neg (by omega), if_pos (by omega),
    BitVec.getElem_zero]

/-- STATUS[7:4] is ERR. -/
theorem statusWord_bits7_4 (c : CoreState) : c.statusWord.extractLsb' 4 4 = c.err := by
  ext i hi
  rw [BitVec.getElem_extractLsb', getLsbD_statusWord, if_neg (by omega), if_neg (by omega), if_neg (by omega),
    Nat.add_sub_cancel_left, BitVec.getLsbD_eq_getElem hi]

/-- STATUS[31:8] is reserved. -/
theorem statusWord_bits31_8 (c : CoreState) : c.statusWord.extractLsb' 8 24 = 0#24 := by
  ext i hi
  rw [BitVec.getElem_extractLsb', getLsbD_statusWord, if_neg (by omega), if_neg (by omega), if_neg (by omega),
    BitVec.getLsbD_of_ge _ _ (by omega), BitVec.getElem_zero]

end Sys2Proof.Proofs
end

section
/-! PROOF. What a command leaves in each field of the core that a command can write besides the latches, by the command and by
the word written to CMD (43 R710, 45 R910 to R915). -/

namespace Sys2Proof.Proofs

open Sys2Proof.Machine Sys2Proof.Laws

@[simp] theorem loadKeyEffect_err (c : CoreState) : (loadKeyEffect c).err = 0#4 := rfl
@[simp] theorem loadKeyEffect_keyValid (c : CoreState) : (loadKeyEffect c).keyValid = true := rfl
@[simp] theorem loadKeyEffect_doutValid (c : CoreState) : (loadKeyEffect c).doutValid = false := rfl
@[simp] theorem loadKeyEffect_doutHi (c : CoreState) : (loadKeyEffect c).doutHi = 0#32 := rfl
@[simp] theorem loadKeyEffect_doutLo (c : CoreState) : (loadKeyEffect c).doutLo = 0#32 := rfl

/-- R910 to R912: a cipher command ends with OK or NO_KEY, by KEY_VALID. -/
@[simp] theorem cipherEffect_err (d : Direction) (c : CoreState) :
    (cipherEffect d c).err = if c.keyValid then 0#4 else 2#4 := by
  cases h : c.rk with
  | none => simp [cipherEffect_noKey d c h, CoreState.keyValid, h, errNoKey]
  | some rk => simp [cipherEffect_key d c rk h, CoreState.keyValid, h, errOk]

/-- A cipher command succeeds exactly when KEY_VALID is 1. -/
theorem cipherEffect_err_ok_iff (d : Direction) (c : CoreState) : (cipherEffect d c).err = 0#4 ↔ c.keyValid = true := by
  rw [cipherEffect_err]
  cases c.keyValid <;> decide

/-- R111: a cipher command leaves RK. -/
@[simp] theorem cipherEffect_rk (d : Direction) (c : CoreState) : (cipherEffect d c).rk = c.rk := (cipherEffect_frame d c).1

/-- R910 to R912: a cipher command sets DOUT_VALID with a key and leaves it without. -/
@[simp] theorem cipherEffect_doutValid (d : Direction) (c : CoreState) :
    (cipherEffect d c).doutValid = (c.keyValid || c.doutValid) := by
  cases h : c.rk with
  | none => simp [cipherEffect_noKey d c h, CoreState.keyValid, h]
  | some rk => simp [cipherEffect_key d c rk h, CoreState.keyValid, h]

/-- R114: a cipher command that fails leaves DOUT_VALID. -/
theorem cipherEffect_doutValid_of_failed (d : Direction) (c : CoreState) (he : (cipherEffect d c).err ≠ 0#4) :
    (cipherEffect d c).doutValid = c.doutValid := by
  have hk : c.keyValid = false := by simpa [cipherEffect_err_ok_iff] using he
  rw [cipherEffect_doutValid, hk, Bool.false_or]

/-- R913: a word that names no command only records ILLEGAL_CMD. -/
theorem cmdStep_illegal (c : CoreState) (w : Word) (h1 : w ≠ 0x00000001#32) (h2 : w ≠ 0x00000002#32)
    (h3 : w ≠ 0x00000003#32) : cmdStep c w = c.recordOutcome errIllegalCmd := by
  obtain ⟨h, -⟩ | ⟨h, -⟩ | ⟨h, -⟩ | ⟨-, -, -, h⟩ := cmdStep_cases c w
  · exact absurd h h1
  · exact absurd h h2
  · exact absurd h h3
  · exact h

/-- R115: the outcome a CMD write leaves in ERR, by its word. -/
theorem cmdStep_err (c : CoreState) (w : Word) :
    (cmdStep c w).err =
      if w = 0x00000001#32 then 0#4
      else if w = 0x00000002#32 ∨ w = 0x00000003#32 then (if c.keyValid then 0#4 else 2#4)
      else 1#4 := by
  obtain ⟨rfl, h⟩ | ⟨rfl, h⟩ | ⟨rfl, h⟩ | ⟨h1, h2, h3, h⟩ := cmdStep_cases c w
  · simp [h]
  · simp [h]
  · simp [h]
  · simp [h, h1, h2, h3, errIllegalCmd]

/-- R116: the outcome is one of the codes 0 to 2. -/
theorem cmdStep_err_le (c : CoreState) (w : Word) : (cmdStep c w).err.toNat ≤ 2 := by
  rw [cmdStep_err]
  split_ifs <;> decide

/-- R111: no word but LOAD_KEY's changes RK. -/
theorem cmdStep_rk (c : CoreState) (w : Word) (hw : w ≠ 0x00000001#32) : (cmdStep c w).rk = c.rk := by
  obtain ⟨h1, -⟩ | ⟨-, h⟩ | ⟨-, h⟩ | ⟨-, -, -, h⟩ := cmdStep_cases c w
  · exact absurd h1 hw
  · simp [h]
  · simp [h]
  · simp [h]

/-- R113: LOAD_KEY's word sets KEY_VALID and no other word changes it. -/
theorem cmdStep_keyValid (c : CoreState) (w : Word) :
    (cmdStep c w).keyValid = (c.keyValid || w == 0x00000001#32) := by
  by_cases hw : w = 0x00000001#32
  · simp [hw, cmdStep_loadKey]
  · simp [hw, CoreState.keyValid, cmdStep_rk c w hw]

/-- R114: a command that does not end with OK leaves DOUT_VALID. -/
theorem cmdStep_doutValid_of_failed (c : CoreState) (w : Word) (he : (cmdStep c w).err ≠ 0#4) :
    (cmdStep c w).doutValid = c.doutValid := by
  obtain ⟨-, h⟩ | ⟨-, h⟩ | ⟨-, h⟩ | ⟨-, -, -, h⟩ := cmdStep_cases c w
  · simp [h] at he
  · rw [h] at he ⊢
    exact cipherEffect_doutValid_of_failed .enc c he
  · rw [h] at he ⊢
    exact cipherEffect_doutValid_of_failed .dec c he
  · rw [h, recordOutcome_doutValid]

/-- R114: a cipher command that ends with OK sets DOUT_VALID. -/
theorem cmdStep_doutValid_of_cipher (c : CoreState) (w : Word) (hw : w = 0x00000002#32 ∨ w = 0x00000003#32)
    (he : (cmdStep c w).err = 0#4) : (cmdStep c w).doutValid = true := by
  obtain ⟨d, h⟩ : ∃ d, cmdStep c w = cipherEffect d c := by
    obtain rfl | rfl := hw
    · exact ⟨.enc, cmdStep_encrypt c⟩
    · exact ⟨.dec, cmdStep_decrypt c⟩
  rw [h, cipherEffect_err_ok_iff] at he
  rw [h, cipherEffect_doutValid, he, Bool.true_or]

/-- The core with another DOUT_VALID. -/
def withDoutValid (b : Bool) (c : CoreState) : CoreState := { c with doutValid := b }

theorem loadKeyEffect_withDoutValid (b : Bool) (c : CoreState) :
    loadKeyEffect (withDoutValid b c) = withDoutValid false (loadKeyEffect c) := rfl

theorem cipherEffect_withDoutValid (d : Direction) (b : Bool) (c : CoreState) :
    cipherEffect d (withDoutValid b c) = withDoutValid (c.keyValid || b) (cipherEffect d c) := by
  cases h : c.rk with
  | none =>
    rw [cipherEffect_noKey d c h, cipherEffect_noKey d (withDoutValid b c) h, CoreState.keyValid, h]
    rfl
  | some rk =>
    rw [cipherEffect_key d c rk h, cipherEffect_key d (withDoutValid b c) rk h, CoreState.keyValid, h]
    rfl

/-- R114: no command's effect on the rest of the core depends on DOUT_VALID. -/
theorem cmdStep_withDoutValid (b : Bool) (c : CoreState) (w : Word) :
    ∃ b', cmdStep (withDoutValid b c) w = withDoutValid b' (cmdStep c w) := by
  obtain ⟨rfl, h⟩ | ⟨rfl, h⟩ | ⟨rfl, h⟩ | ⟨h1, h2, h3, h⟩ := cmdStep_cases c w
  · rw [h, cmdStep_loadKey]
    exact ⟨_, loadKeyEffect_withDoutValid b c⟩
  · rw [h, cmdStep_encrypt]
    exact ⟨_, cipherEffect_withDoutValid .enc b c⟩
  · rw [h, cmdStep_decrypt]
    exact ⟨_, cipherEffect_withDoutValid .dec b c⟩
  · rw [h, cmdStep_illegal _ w h1 h2 h3]
    exact ⟨b, rfl⟩

end Sys2Proof.Proofs
end

section
/-! PROOF. What one event, one step and a run make of the core: every statement about registers is read off the effect of an
event on the core alone, with the machine's own fields left out. -/

namespace Sys2Proof.Proofs

open Sys2Proof.Machine Sys2Proof.Safety Sys2Proof.Laws

/-- What serving an event that lets the run go on makes of the core (R1000, R1001, R206, R1200). -/
def coreServe (c : CoreState) (e : BusEvent) : CoreState :=
  match e with
  | .reset => CoreState.reset
  | .access t =>
    match t.target, t.dir with
    | some r, .write => writeRegister r t.data c
    | some _, .read => c
    | none, _ => c

@[simp] theorem coreServe_reset (c : CoreState) : coreServe c .reset = CoreState.reset := rfl

/-- An admitted write gives the core writeRegister's state. -/
theorem coreServe_of_writes {e : BusEvent} {r : Reg} {v : Word} (c : CoreState) (h : writesRegister e r v) :
    coreServe c e = writeRegister r v c := by
  obtain ⟨t, rfl, hd, hr, rfl⟩ := h
  simp [coreServe, hr, hd]

/-- An access that is no admitted write leaves the core. -/
theorem coreServe_of_no_write (c : CoreState) (t : Transaction) (h : ∀ r v, ¬ writesRegister (.access t) r v) :
    coreServe c (.access t) = c := by
  cases hr : t.target with
  | none => simp [coreServe, hr]
  | some r =>
    cases hd : t.dir with
    | read => simp [coreServe, hr, hd]
    | write => exact absurd ⟨t, rfl, hd, hr, rfl⟩ (h r t.data)

/-- The ledger takes an admitted write as the core does. -/
theorem ledger_serve_of_writes {e : BusEvent} {r : Reg} {v : Word} (g : Ledger) (h : writesRegister e r v) :
    g.serve e = g.write r v := by
  obtain ⟨t, rfl, hd, hr, rfl⟩ := h
  simp [Ledger.serve, hr, hd]

/-- An access that is no admitted write leaves the ledger. -/
theorem ledger_serve_of_no_write (g : Ledger) (t : Transaction) (h : ∀ r v, ¬ writesRegister (.access t) r v) :
    g.serve (.access t) = g := by
  cases hr : t.target with
  | none => simp [Ledger.serve, hr]
  | some r =>
    cases hd : t.dir with
    | read => simp [Ledger.serve, hr, hd]
    | write => exact absurd ⟨t, rfl, hd, hr, rfl⟩ (h r t.data)

/-- A step that serves an event and goes on takes it off and gives the core its effect. -/
theorem step_serves {s t : State} {e : BusEvent} {rest : List BusEvent} (h : step s = .next t)
    (hp : s.pending = e :: rest) : t.core = coreServe s.core e ∧ t.pending = rest := by
  obtain ⟨h0, -⟩ | ⟨rest', h1, rfl⟩ | ⟨a, rest', h1, h2⟩ := step_cases s t h
  · simp [h0] at hp
  · obtain ⟨rfl, rfl⟩ := List.cons.inj (h1.symm.trans hp)
    exact ⟨rfl, rfl⟩
  · obtain ⟨rfl, rfl⟩ := List.cons.inj (h1.symm.trans hp)
    obtain ⟨hr, rfl⟩ | ⟨r, hr, hd, rfl⟩ | ⟨r, hr, hd, rfl⟩ := h2
    · simp [coreServe, hr]
    · simp [coreServe, hr, hd]
    · simp [coreServe, hr, hd]

/-- The core after a step, by the event at the head of the pending ones, the form in which nextWrites and nextResets name it. -/
theorem step_core_of_head {s t : State} {e : BusEvent} (h : step s = .next t) (he : s.pending.head? = some e) :
    t.core = coreServe s.core e := by
  obtain ⟨rest, hp⟩ := List.head?_eq_some_iff.mp he
  exact (step_serves h hp).1

/-- R1200: a step that serves the reset input leaves the core in its reset state. -/
theorem step_core_of_nextResets {s t : State} (h : step s = .next t) (hr : nextResets s) : t.core = CoreState.reset :=
  step_core_of_head h hr

/-- R1000: a step that serves an admitted write gives the core writeRegister's state. -/
theorem step_core_of_nextWrites {s t : State} {r : Reg} {v : Word} (h : step s = .next t) (hw : nextWrites s r v) :
    t.core = writeRegister r v s.core := by
  obtain ⟨e, he, hw⟩ := hw
  rw [step_core_of_head h he, coreServe_of_writes _ hw]

/-- A write to CMD is the command step (R915). -/
theorem step_core_of_command {s t : State} {w : Word} (h : step s = .next t) (hw : nextWrites s .cmd w) :
    t.core = cmdStep s.core w := step_core_of_nextWrites h hw

/-- Every step that goes on serves the reset input or an admitted write, or leaves the core. -/
theorem step_core_cases {s t : State} (h : step s = .next t) :
    nextResets s ∨ (∃ r v, nextWrites s r v) ∨ t.core = s.core := by
  cases hp : s.pending with
  | nil =>
    rw [step_idle s hp] at h
    cases h
    exact .inr (.inr rfl)
  | cons e rest =>
    have he : s.pending.head? = some e := by rw [hp]; rfl
    cases e with
    | reset => exact .inl he
    | access a =>
      by_cases hw : ∃ r v, writesRegister (.access a) r v
      · obtain ⟨r, v, hw⟩ := hw
        exact .inr (.inl ⟨r, v, _, he, hw⟩)
      · push Not at hw
        exact .inr (.inr (by rw [step_core_of_head h he, coreServe_of_no_write _ _ hw]))

/-- R1000: a write to a register other than CMD changes none of DOUT, RK, DOUT_VALID and ERR. -/
theorem writeRegister_frame (r : Reg) (v : Word) (c : CoreState) (hr : r ≠ .cmd) :
    (writeRegister r v c).rk = c.rk ∧ (writeRegister r v c).doutValid = c.doutValid ∧
      (writeRegister r v c).err = c.err ∧ (writeRegister r v c).doutHi = c.doutHi ∧
      (writeRegister r v c).doutLo = c.doutLo := by
  cases r with
  | cmd => exact absurd rfl hr
  | keyHi | keyLo | dinHi | dinLo | status | doutHi | doutLo => exact ⟨rfl, rfl, rfl, rfl, rfl⟩

/-- A step that serves neither the reset input nor a CMD write changes none of DOUT, RK, DOUT_VALID and ERR. -/
theorem step_frame {s t : State} (h : step s = .next t) (hr : ¬ nextResets s) (hc : ∀ w, ¬ nextWrites s .cmd w) :
    t.core.rk = s.core.rk ∧ t.core.doutValid = s.core.doutValid ∧ t.core.err = s.core.err ∧
      t.core.doutHi = s.core.doutHi ∧ t.core.doutLo = s.core.doutLo := by
  obtain h0 | ⟨r, v, hw⟩ | h0 := step_core_cases h
  · exact absurd h0 hr
  · rw [step_core_of_nextWrites h hw]
    exact writeRegister_frame r v s.core (fun h0 => hc v (h0 ▸ hw))
  · simp [h0]

/-- R111: a step that serves neither the reset input nor LOAD_KEY leaves RK. -/
theorem step_rk {s t : State} (h : step s = .next t) (hr : ¬ nextResets s) (hl : ¬ nextWrites s .cmd 0x00000001#32) :
    t.core.rk = s.core.rk := by
  by_cases hc : ∃ w, nextWrites s .cmd w
  · obtain ⟨w, hw⟩ := hc
    rw [step_core_of_command h hw]
    exact cmdStep_rk s.core w (fun h0 => hl (h0 ▸ hw))
  · push Not at hc
    exact (step_frame h hr hc).1

/-- Of any machine: a run that goes on begins with a step that goes on. -/
theorem run_succ {M : Host.Core} {n : Nat} {s t : M.State} (h : M.run (n + 1) s = .next t) :
    ∃ u, M.step s = .next u ∧ M.run n u = .next t := by
  rw [Host.Core.run] at h
  cases hs : M.step s with
  | next u =>
    rw [hs] at h
    exact ⟨u, rfl, h⟩
  | fault r =>
    rw [hs] at h
    cases h
  | refused r =>
    rw [hs] at h
    cases h

/-- Events served to their end give the core their effects, in order (R220). -/
theorem run_core (es : List BusEvent) {s t : State} (hp : s.pending = es)
    (h : Host.Core.run Sys2Proof.core es.length s = .next t) : t.core = es.foldl coreServe s.core := by
  induction es generalizing s with
  | nil =>
    cases h
    rfl
  | cons e es ih =>
    obtain ⟨u, hs, hu⟩ := run_succ (M := Sys2Proof.core) h
    obtain ⟨hc, hrest⟩ := step_serves hs hp
    rw [ih hrest hu, hc, List.foldl_cons]

end Sys2Proof.Proofs
end

section
/-! PROOF. Over a list of events: KEY_VALID as the last LOAD_KEY and reset leave it (R113), and the ledger that keeps describing
the core (R114). -/

namespace Sys2Proof.Proofs

open Sys2Proof.Machine Sys2Proof.Safety Sys2Proof.Laws

/-- R113: an access sets KEY_VALID when it is LOAD_KEY's CMD write, and leaves it otherwise. -/
theorem coreServe_access_keyValid (c : CoreState) (t : Transaction) :
    (coreServe c (.access t)).keyValid =
      (c.keyValid || (t.dir == .write && t.target == some .cmd && t.data == encode .loadKey)) := by
  by_cases hw : ∃ r v, writesRegister (.access t) r v
  · obtain ⟨r, v, hw⟩ := hw
    rw [coreServe_of_writes c hw]
    obtain ⟨a, ha, hd, hr, rfl⟩ := hw
    cases ha
    by_cases hcmd : r = .cmd
    · subst hcmd
      rw [hd, hr]
      exact cmdStep_keyValid c t.data
    · simp [hr, hcmd, CoreState.keyValid, (writeRegister_frame r t.data c hcmd).1]
  · push Not at hw
    rw [coreServe_of_no_write c t hw]
    by_cases hd : t.dir = .write
    · have hr : t.target ≠ some .cmd := fun hr => hw .cmd t.data ⟨t, rfl, hd, hr, rfl⟩
      simp [hr]
    · simp [hd]

/-- R113: KEY_VALID after a list of events is what the last LOAD_KEY and the last reset in it leave. -/
theorem foldl_coreServe_keyValid (es : List BusEvent) (c : CoreState) :
    (es.foldl coreServe c).keyValid = keyLoadedAfter es c.keyValid := by
  induction es generalizing c with
  | nil => rfl
  | cons e es ih =>
    rw [List.foldl_cons, ih]
    cases e with
    | reset => rfl
    | access t => rw [coreServe_access_keyValid, keyLoadedAfter]

/-- The halves of a block joined again are the block (R400, R401). -/
theorem hi32_append_lo32 (x : Block) : hi32 x ++ lo32 x = x :=
  (BitVec.extractLsb'_append_extractLsb'_eq_extractLsb' rfl).trans BitVec.extractLsb'_eq_self

/-- R1200: no key and no result describe the core at reset. -/
theorem describes_reset : Ledger.reset.describes CoreState.reset where
  keyHi := rfl
  keyLo := rfl
  dinHi := rfl
  dinLo := rfl
  schedule := rfl
  valid := rfl
  result := fun _ _ h => by cases h
  clear := fun _ => ⟨rfl, rfl⟩

section
variable {g : Ledger} {c : CoreState} (hd : g.describes c)
include hd

/-- The ledger says nothing of ERR. -/
theorem describes_recordOutcome (code : BitVec 4) : g.describes (c.recordOutcome code) := { hd with }

/-- R710: the key LOAD_KEY takes is the one the ledger names, and no result outlives it. -/
theorem describes_loadKey : g.loadKey.describes (loadKeyEffect c) where
  keyHi := rfl
  keyLo := rfl
  dinHi := hd.dinHi
  dinLo := hd.dinLo
  schedule := by
    rw [Ledger.loadKey, Option.map_some, ← hd.keyHi, ← hd.keyLo]
    rfl
  valid := rfl
  result := fun _ _ h => by cases h
  clear := fun _ => ⟨rfl, rfl⟩

/-- R910 to R912: with a key the result is that of the block in DIN under the schedule in RK; without one nothing changes. -/
theorem describes_cipher (d : Direction) : (g.cipher d).describes (cipherEffect d c) := by
  cases hk : g.key with
  | none =>
    have hrk : c.rk = none := by rw [hd.schedule, hk, Option.map_none]
    rw [cipherEffect_noKey d c hrk, Ledger.cipher, hk]
    exact describes_recordOutcome hd errNoKey
  | some k =>
    have hrk : c.rk = some (keySchedule k) := by rw [hd.schedule, hk, Option.map_some]
    have hb : c.blockOperand = g.dinHi ++ g.dinLo := by rw [CoreState.blockOperand, hd.dinHi, hd.dinLo, join64]
    rw [cipherEffect_key d c _ hrk, Ledger.cipher, if_pos (by rw [hk, Option.isSome_some]), hb]
    refine describes_recordOutcome ?_ errOk
    refine { hd with valid := rfl, result := ?_, clear := nofun }
    rintro _ _ ⟨⟩
    exact ⟨_, hrk, hi32_append_lo32 _⟩

/-- R1000: an admitted write to any register keeps the ledger true. -/
theorem describes_write (r : Reg) (v : Word) : (g.write r v).describes (writeRegister r v c) := by
  cases r with
  | keyHi => exact { hd with keyHi := rfl }
  | keyLo => exact { hd with keyLo := rfl }
  | dinHi => exact { hd with dinHi := rfl }
  | dinLo => exact { hd with dinLo := rfl }
  | status | doutHi | doutLo => exact hd
  | cmd =>
    show Ledger.describes _ (cmdStep c v)
    obtain ⟨rfl, h⟩ | ⟨rfl, h⟩ | ⟨rfl, h⟩ | ⟨h1, h2, h3, h⟩ := cmdStep_cases c v
    · rw [h]
      exact describes_loadKey hd
    · rw [h]
      exact describes_cipher hd .enc
    · rw [h]
      exact describes_cipher hd .dec
    · rw [h, Ledger.write, if_neg h1, if_neg h2, if_neg h3]
      exact describes_recordOutcome hd errIllegalCmd

/-- Every event keeps the ledger true. -/
theorem describes_serve (e : BusEvent) : (g.serve e).describes (coreServe c e) := by
  cases e with
  | reset => exact describes_reset
  | access t =>
    by_cases hw : ∃ r v, writesRegister (.access t) r v
    · obtain ⟨r, v, hw⟩ := hw
      rw [coreServe_of_writes c hw, ledger_serve_of_writes g hw]
      exact describes_write hd r v
    · push Not at hw
      rw [coreServe_of_no_write c t hw, ledger_serve_of_no_write g t hw]
      exact hd

end

/-- So does every list of events. -/
theorem describes_foldl_serve (es : List BusEvent) {g : Ledger} {c : CoreState} (hd : g.describes c) :
    (es.foldl Ledger.serve g).describes (es.foldl coreServe c) := by
  induction es generalizing g c with
  | nil => exact hd
  | cons e es ih => exact ih (describes_serve hd e)

end Sys2Proof.Proofs
end

section
/-! PROOF. The statements about the registers of the core (10_state.md), settled. -/

namespace Sys2Proof.Proofs

open Sys2Proof.Machine Sys2Proof.Safety Sys2Proof.Laws

/-- Settles O31, from the bits of STATUS. -/
theorem statusWordHasItsFields : Obligations.StatusWordHasItsFields := by
  refine ⟨fun c => ⟨rfl, statusWord_bit0 c, statusWord_bit1 c, statusWord_bits3_2 c, statusWord_bits7_4 c,
    statusWord_bits31_8 c⟩, rfl, fun c v => ?_⟩
  have hr : (writeAccess .status v).target = some .status := target_writeAccess .status v
  show hostStep c (writeAccess .status v) = _
  simp only [hostStep, hr]
  rfl

/-- Settles O25: ERR after a step, by the event it served. -/
theorem errReportsTheLatestCommandAlone : Obligations.ErrReportsTheLatestCommandAlone := by
  refine ⟨rfl, fun s t h => ⟨fun hr => ?_, fun w hw => ?_, fun hr hc => ?_⟩⟩
  · rw [step_core_of_nextResets h hr]
    rfl
  · rw [step_core_of_command h hw, cmdStep_err]
  · obtain ⟨-, -, herr, -⟩ := step_frame h hr hc
    exact herr

/-- Settles O26, per step from RK's frame and over a list of events by induction on it. -/
theorem keyValidFollowsLoadKeyAndReset : Obligations.KeyValidFollowsLoadKeyAndReset := by
  refine ⟨rfl, statusWord_bit0, fun s t h => ⟨fun hr => ?_, fun hl => ?_, fun hr hl => ?_⟩, fun es s t hp h => ?_,
    fun s i hi => ⟨_, exec_eq i s, ?_⟩⟩
  · rw [step_core_of_nextResets h hr]
    rfl
  · rw [step_core_of_command h hl, cmdStep_loadKey, loadKeyEffect_keyValid]
  · rw [CoreState.keyValid, step_rk h hr hl, CoreState.keyValid]
  · rw [run_core es hp h, foldl_coreServe_keyValid]
  · obtain ⟨d, hd⟩ : ∃ d, commandEffect i s.core = cipherEffect d s.core := by
      obtain rfl | rfl := hi
      · exact ⟨.enc, rfl⟩
      · exact ⟨.dec, rfl⟩
    rw [withCore_core, hd, cipherEffect_err]
    cases s.core.keyValid <;> simp

/-- Settles O27: DOUT_VALID after a step, by the event it served. -/
theorem doutValidFollowsCommands : Obligations.DoutValidFollowsCommands := by
  refine fun s t h => ⟨fun hr => ?_, fun hl => ?_, fun hc => ?_, fun hr hn => ?_⟩
  · rw [step_core_of_nextResets h hr]
    rfl
  · rw [step_core_of_command h hl, cmdStep_loadKey, loadKeyEffect_doutValid]
  · obtain hw | hw := hc
    · rw [step_core_of_command h hw, cmdStep_encrypt, cipherEffect_doutValid]
    · rw [step_core_of_command h hw, cmdStep_decrypt, cipherEffect_doutValid]
  · by_cases hc : ∃ w, nextWrites s .cmd w
    · obtain ⟨w, hw⟩ := hc
      rw [step_core_of_command h hw, cmdStep_illegal s.core w (fun h1 => hn w (.inl h1) hw)
        (fun h2 => hn w (.inr (.inl h2)) hw) (fun h3 => hn w (.inr (.inr h3)) hw), recordOutcome_doutValid]
    · push Not at hc
      obtain ⟨-, hvalid, -⟩ := step_frame h hr hc
      exact hvalid

/-- Settles O28, from RK's frame. -/
theorem scheduleChangesOnlyAtLoadKeyAndReset : Obligations.ScheduleChangesOnlyAtLoadKeyAndReset := by
  intro s t h hne
  by_contra hno
  obtain ⟨hr, hl⟩ := not_or.mp hno
  exact hne (step_rk h hr hl)

/-- Settles O32: the three codes a CMD write can leave are at most 2, and no other event writes one. -/
theorem reservedCodesNeverAppear : Obligations.ReservedCodesNeverAppear := by
  refine ⟨fun c => ⟨statusWord_bits3_2 c, statusWord_bits31_8 c⟩, fun s t hs h => ?_⟩
  by_cases hr : nextResets s
  · rw [step_core_of_nextResets h hr]
    decide
  · by_cases hc : ∃ w, nextWrites s .cmd w
    · obtain ⟨w, hw⟩ := hc
      rw [step_core_of_command h hw]
      exact cmdStep_err_le s.core w
    · push Not at hc
      obtain ⟨-, -, herr, -⟩ := step_frame h hr hc
      rwa [herr]

/-- Settles O60: the ledger by induction on the events, and the command step by its word. -/
theorem doutIsTheLastResultOverEvents : Obligations.DoutIsTheLastResultOverEvents := by
  refine ⟨rfl, fun es s t g hd hp h => ?_, fun c w => ⟨?_, fun hw he => ?_, cmdStep_doutValid_of_failed c w, fun b => ?_⟩⟩
  · rw [run_core es hp h]
    exact describes_foldl_serve es hd
  · rintro rfl
    simp [cmdStep_loadKey]
  · exact cmdStep_doutValid_of_cipher c w hw he
  · exact cmdStep_withDoutValid b c w

end Sys2Proof.Proofs
end

section
/-! PROOF. The CMD word (30_encoding.md R300 to R303): it is RSVD ‖ OP, so the three commands' words are those with RSVD zero
and OP 1 to 3, and every other word decodes to an error. -/

namespace Sys2Proof.Proofs

open Sys2Proof.Machine Sys2Proof.Laws

/-- R300: a CMD word is determined by its two fields. -/
theorem cmdWord_eq_append_iff (w : Word) (rsvd : BitVec 28) (op : BitVec 4) :
    w = rsvd ++ op ↔ w.extractLsb' 4 28 = rsvd ∧ w.extractLsb' 0 4 = op := by
  constructor
  · rintro rfl
    exact ⟨BitVec.extractLsb'_append_eq_left, BitVec.extractLsb'_append_eq_right⟩
  · rintro ⟨rfl, rfl⟩
    have hw : w.extractLsb' 4 28 ++ w.extractLsb' 0 4 = w :=
      (BitVec.extractLsb'_append_extractLsb'_eq_extractLsb' rfl).trans BitVec.extractLsb'_eq_self
    exact hw.symm

/-- R301: a word is one of the three command words exactly when RSVD is zero and OP is 1, 2 or 3. -/
theorem isCommandWord_iff_fields (w : Word) :
    (w = 0x00000001#32 ∨ w = 0x00000002#32 ∨ w = 0x00000003#32) ↔
      (w.extractLsb' 0 4 = 1#4 ∨ w.extractLsb' 0 4 = 2#4 ∨ w.extractLsb' 0 4 = 3#4) ∧ w.extractLsb' 4 28 = 0#28 := by
  have h1 := cmdWord_eq_append_iff w 0#28 1#4
  have h2 := cmdWord_eq_append_iff w 0#28 2#4
  have h3 := cmdWord_eq_append_iff w 0#28 3#4
  simp only [BitVec.reduceAppend] at h1 h2 h3
  rw [h1, h2, h3]
  tauto

/-- R303: the reserved codes, 0x0 and 0x4 to 0xF, are those that name no command. -/
theorem reservedOp_iff (op : BitVec 4) :
    (op = 0#4 ∨ 4 ≤ op.toNat) ↔ ¬ (op = 1#4 ∨ op = 2#4 ∨ op = 3#4) := by
  revert op
  decide

/-- R302, R303: a word decodes to an error exactly when it is no command's word. -/
theorem decode_error_iff (w : Word) :
    (∃ e, decode w = .error e) ↔ w ≠ 0x00000001#32 ∧ w ≠ 0x00000002#32 ∧ w ≠ 0x00000003#32 := by
  obtain ⟨rfl, h⟩ | ⟨rfl, h⟩ | ⟨rfl, h⟩ | ⟨h1, h2, h3, he⟩ := decode_cases w
  · simp [h]
  · simp [h]
  · simp [h]
  · exact iff_of_true he ⟨h1, h2, h3⟩

/-- R303: a word decodes to an error exactly when OP is reserved, or OP names a command and RSVD is not zero. -/
theorem decode_error_iff_fields (w : Word) :
    (∃ e, decode w = .error e) ↔
      ((w.extractLsb' 0 4 = 0#4 ∨ 4 ≤ (w.extractLsb' 0 4).toNat) ∨
       ((w.extractLsb' 0 4 = 1#4 ∨ w.extractLsb' 0 4 = 2#4 ∨ w.extractLsb' 0 4 = 3#4) ∧ w.extractLsb' 4 28 ≠ 0#28)) := by
  have hw := isCommandWord_iff_fields w
  rw [decode_error_iff, reservedOp_iff]
  tauto

/-- R1000, R1003: an admitted write answers writeRegister's state and no word. -/
theorem hostStep_writeAccess (c : CoreState) (r : Reg) (v : Word) :
    hostStep c (writeAccess r v) = .ok (writeRegister r v c, none) := by
  have hr := target_writeAccess r v
  simp only [hostStep, hr]
  rfl

/-- R913: a CMD write of a word that decodes to an error only sets ERR to 1. -/
theorem hostStep_illegalWord (c : CoreState) (w : Word) (he : ∃ e, decode w = .error e) :
    hostStep c (writeAccess .cmd w) = .ok ({ c with err := 1#4 }, none) := by
  obtain ⟨h1, h2, h3⟩ := (decode_error_iff w).mp he
  rw [hostStep_writeAccess, writeRegister, cmdStep_illegal c w h1 h2 h3]
  rfl

/-- Settles O6, from the word's two fields and the CMD write of a word that names no command. -/
theorem illegalWordsOnlySetErr : Obligations.IllegalWordsOnlySetErr :=
  fun w => ⟨decode_error_iff w, decode_error_iff_fields w, fun he c => hostStep_illegalWord c w he⟩

/-- Settles O4, from the words of the three commands and the words that decode to an error. -/
theorem decodeReadsTheCommandTable : Obligations.DecodeReadsTheCommandTable := by
  refine fun w => ⟨?_, ?_, ?_, fun h1 h2 h3 => (decode_error_iff w).mpr ⟨h1, h2, h3⟩⟩
  · rintro rfl
    exact decode_word_loadKey
  · rintro rfl
    exact decode_word_encrypt
  · rintro rfl
    exact decode_word_decrypt

end Sys2Proof.Proofs
end

section
/-! PROOF. Halves and slices of a value (40_bit_packing_control.md R400 to R402): the half accessors undo the joins, and a slice
is read in FIPS positions. -/

namespace Sys2Proof.Proofs

open Sys2Proof.Machine

@[simp] theorem join64_eq_append (h l : Word) : join64 h l = h ++ l := rfl
@[simp] theorem join56_eq_append (c d : KeyHalf) : join56 c d = c ++ d := rfl
@[simp] theorem join48_eq_append (h l : BitVec 24) : join48 h l = h ++ l := rfl

@[simp] theorem hi32_append (h l : Word) : hi32 (h ++ l) = h := BitVec.extractLsb'_append_eq_left
@[simp] theorem lo32_append (h l : Word) : lo32 (h ++ l) = l := BitVec.extractLsb'_append_eq_right
@[simp] theorem hi28_append (c d : KeyHalf) : hi28 (c ++ d) = c := BitVec.extractLsb'_append_eq_left
@[simp] theorem lo28_append (c d : KeyHalf) : lo28 (c ++ d) = d := BitVec.extractLsb'_append_eq_right
@[simp] theorem hi24_append (h l : BitVec 24) : hi24 (h ++ l) = h := BitVec.extractLsb'_append_eq_left
@[simp] theorem lo24_append (h l : BitVec 24) : lo24 (h ++ l) = l := BitVec.extractLsb'_append_eq_right

@[simp] theorem swap64_append (h l : Word) : swap64 (h ++ l) = l ++ h := by
  rw [swap64, hi32_append, lo32_append, join64_eq_append]

/-- A slice of a slice is a slice of the whole. -/
theorem extractLsb'_extractLsb' {m : Nat} (x : BitVec m) (s n start len : Nat) (h : start + len ≤ n) :
    (x.extractLsb' s n).extractLsb' start len = x.extractLsb' (s + start) len := by
  refine BitVec.eq_of_getLsbD_eq fun i hi => ?_
  have hin : start + i < n := by omega
  simp [hi, hin, Nat.add_assoc]

/-- R400: the bits of a slice, from its top bit down, are consecutive FIPS positions of the whole. -/
theorem getLsbD_extractLsb'_eq_fips {m : Nat} (x : BitVec m) (s len p : Nat) (hp : p < len) (hm : s + len ≤ m) :
    (x.extractLsb' s len).getLsbD (len - 1 - p) = fips x (m + 1 - (s + len) + p) := by
  rw [BitVec.getLsbD_extractLsb', fips, decide_eq_true (by omega), Bool.true_and]
  congr 1
  omega

/-- Settles O47: the three lines are the model's own, and the half-swap of L ‖ R is R ‖ L. -/
theorem outputIsRipOfTheSwappedHalves : Obligations.OutputIsRipOfTheSwappedHalves :=
  ⟨fun _ => rfl, fun l r => ⟨swap64_append l r, rfl⟩, fun _ _ _ => rfl⟩

end Sys2Proof.Proofs
end

section
/-! PROOF. The byte order of a block (40_bit_packing_control.md R404): eight bytes are joined most significant first, and the
block's bytes and halves are slices of what was joined. -/

namespace Sys2Proof.Proofs

open Sys2Proof.Machine

/-- R404: shifting in a byte is appending it, cut to 64 bits, so the fold over eight bytes joins them. -/
theorem bytesToU64_eight (b0 b1 b2 b3 b4 b5 b6 b7 : Byte) :
    bytesToU64 [b0, b1, b2, b3, b4, b5, b6, b7] = b0 ++ b1 ++ b2 ++ b3 ++ b4 ++ b5 ++ b6 ++ b7 := by
  simp only [bytesToU64, List.foldl_cons, List.foldl_nil, BitVec.zero_shiftLeft, BitVec.zero_or,
    ← BitVec.setWidth_append_eq_shiftLeft_setWidth_or, BitVec.setWidth_eq]

/-- R401: the high half of the joined bytes is the first four, the low half the last four. -/
theorem append_eight_eq_halves (b0 b1 b2 b3 b4 b5 b6 b7 : Byte) :
    b0 ++ b1 ++ b2 ++ b3 ++ b4 ++ b5 ++ b6 ++ b7 = (b0 ++ b1 ++ b2 ++ b3) ++ (b4 ++ b5 ++ b6 ++ b7) := by
  simp only [BitVec.append_assoc', BitVec.cast_eq]

/-- R404: each slice drops the bytes joined after its own. -/
theorem u64ToBytes_append (b0 b1 b2 b3 b4 b5 b6 b7 : Byte) :
    u64ToBytes (b0 ++ b1 ++ b2 ++ b3 ++ b4 ++ b5 ++ b6 ++ b7) = [b0, b1, b2, b3, b4, b5, b6, b7] := by
  simp [u64ToBytes, BitVec.extractLsb'_append_eq_of_le (w := 8), BitVec.extractLsb'_append_eq_right (w' := 8),
    BitVec.extractLsb'_eq_self]

/-- R404: adjacent slices join to the slice over both, at the end the whole value. -/
theorem bytesToU64_u64ToBytes (x : Block) : bytesToU64 (u64ToBytes x) = x := by
  rw [u64ToBytes, bytesToU64_eight]
  simp only [BitVec.extractLsb'_append_extractLsb'_eq_extractLsb', BitVec.extractLsb'_eq_self]

/-- Settles O36, from the eight bytes joined. -/
theorem bytesAndWordsConvertBigEndian : Obligations.BytesAndWordsConvertBigEndian := by
  refine ⟨fun b0 b1 b2 b3 b4 b5 b6 b7 => ?_, bytesToU64_u64ToBytes, by decide, by decide, by decide, by decide⟩
  rw [bytesToU64_eight]
  refine ⟨rfl, ?_, ?_, u64ToBytes_append b0 b1 b2 b3 b4 b5 b6 b7, ?_⟩
  · rw [append_eight_eq_halves, hi32_append]
  · rw [append_eight_eq_halves, lo32_append]
  · simp [fips, BitVec.getElem_append (m := 8)]

end Sys2Proof.Proofs
end

section
/-! PROOF. The six tables in their two forms (40_bit_packing_control.md R410). Both are bit-0 tables once a FIPS position is
counted from the other end and a split-half entry is read in the two halves joined; the two forms then agree because their
lists of bits do. -/

namespace Sys2Proof.Proofs

open Sys2Proof.Machine Sys2Proof.Laws

/-- R410: output position i of a table permutation copies input position T[i]. -/
theorem getLsbD_perm_position {m n : Nat} (t : List Nat) (x : BitVec m) (ht : t.length = n) (i : Nat) (h1 : 1 ≤ i)
    (hi : i ≤ n) : (perm t x : BitVec n).getLsbD (n - i) = x.getLsbD (m - t.getD (i - 1) 0) := by
  subst ht
  have hk : t.length - i < t.length := by omega
  have hi' : i - 1 < t.length := by omega
  have hrev : t.length - 1 - (t.length - i) = i - 1 := by omega
  rw [getLsbD_perm t x rfl]
  simp [hk, hi', hrev, fips]

/-- R410: a FIPS table is the bit-0 table of its positions counted from the other end. -/
theorem perm_eq_permBits {m n : Nat} (t : List Nat) (x : BitVec m) :
    (perm t x : BitVec n) = permBits (t.map (lsbOfFips m)) x := by
  rw [perm, permBits, List.foldl_map]
  rfl

/-- R410: the bit of the two joined halves that a split-half entry names. -/
def joinedBit (w : Nat) (p : Half × Nat) : Nat := if p.1 = .hi then p.2 + w else p.2

theorem getLsbD_joinedBit {w : Nat} (hi lo : BitVec w) (p : Half × Nat) (hp : p.2 < w) :
    (hi ++ lo).getLsbD (joinedBit w p) = (if p.1 = .hi then hi else lo).getLsbD p.2 := by
  rw [joinedBit, BitVec.getLsbD_append]
  by_cases h : p.1 = .hi
  · simp [h]
  · simp [h, hp]

/-- R410: a split-half table is the bit-0 table, over the two halves joined, of the bits it names. -/
theorem permHalves_eq_permBits {w n : Nat} (t : List (Half × Nat)) (hi lo : BitVec w) (ht : ∀ p ∈ t, p.2 < w) :
    (permHalves t hi lo : BitVec n) = permBits (t.map (joinedBit w)) (hi ++ lo) := by
  rw [permHalves, permBits, List.foldl_map]
  exact List.foldl_ext _ _ _ fun acc p hp => by rw [getLsbD_joinedBit hi lo p (ht p hp)]

/-- R410: the two forms of a table are the same function when their entries name the same bits. -/
theorem perm_eq_permHalves {w n : Nat} (t : List Nat) (s : List (Half × Nat)) (x : BitVec (w + w))
    (hs : ∀ p ∈ s, p.2 < w) (hts : t.map (lsbOfFips (w + w)) = s.map (joinedBit w)) :
    (perm t x : BitVec n) = permHalves s (x.extractLsb' w w) (x.extractLsb' 0 w) := by
  rw [permHalves_eq_permBits s _ _ hs, BitVec.extractLsb'_append_extractLsb', ← hts, perm_eq_permBits]

theorem initialPermutation_eq_splitIP (x : Block) : initialPermutation x = permHalves splitIP (hi32 x) (lo32 x) :=
  perm_eq_permHalves (w := 32) tableIP splitIP x (by decide) (by decide)

theorem inverseInitialPermutation_eq_splitRIP (x : Block) :
    inverseInitialPermutation x = permHalves splitRIP (hi32 x) (lo32 x) :=
  perm_eq_permHalves (w := 32) tableRIP splitRIP x (by decide) (by decide)

theorem permutedChoice1_eq_splitPC1 (k : Block) : permutedChoice1 k = permHalves splitPC1 (hi32 k) (lo32 k) :=
  perm_eq_permHalves (w := 32) tablePC1 splitPC1 k (by decide) (by decide)

theorem permutedChoice2_eq_splitPC2 (y : BitVec 56) : permutedChoice2 y = permHalves splitPC2 (hi28 y) (lo28 y) :=
  perm_eq_permHalves (w := 28) tablePC2 splitPC2 y (by decide) (by decide)

theorem expansion_eq_splitE (r : Word) : expansion r = permBits splitE r := by
  have hE : tableE.map (lsbOfFips 32) = splitE := by decide
  rw [expansion, perm_eq_permBits, hE]

theorem roundPermutation_eq_splitP (y : Word) : roundPermutation y = permBits splitP y := by
  have hP : tableP.map (lsbOfFips 32) = splitP := by decide
  rw [roundPermutation, perm_eq_permBits, hP]

/-- Settles O37, from the bits of a table permutation and the two forms of each table. -/
theorem tablesInBothFormsAgree : Obligations.TablesInBothFormsAgree :=
  ⟨fun x i h1 hi => ⟨getLsbD_perm_position tableIP x rfl i h1 hi, getLsbD_perm_position tableRIP x rfl i h1 hi⟩,
    fun r => getLsbD_perm_position tableE r rfl,
    fun y => getLsbD_perm_position tableP y rfl,
    fun k => getLsbD_perm_position tablePC1 k rfl,
    fun y => getLsbD_perm_position tablePC2 y rfl,
    initialPermutation_eq_splitIP, inverseInitialPermutation_eq_splitRIP, expansion_eq_splitE,
    roundPermutation_eq_splitP, permutedChoice1_eq_splitPC1, permutedChoice2_eq_splitPC2⟩

end Sys2Proof.Proofs
end

section
/-! PROOF. The halves of a round key (40_bit_packing_control.md R407): the first half of PC-2's split-half table reads C alone
and the second reads D alone. -/

namespace Sys2Proof.Proofs

open Sys2Proof.Machine Sys2Proof.Laws

/-- A split-half table read in two parts gives the two parts' outputs joined. -/
theorem permHalves_append {w m n : Nat} (s t : List (Half × Nat)) (hi lo : BitVec w) (hs : s.length = m)
    (ht : t.length = n) :
    (permHalves (s ++ t) hi lo : BitVec (m + n)) = permHalves s hi lo ++ permHalves t hi lo := by
  refine BitVec.eq_of_getLsbD_eq fun k hk => ?_
  rw [BitVec.getLsbD_append, getLsbD_permHalves (s ++ t) hi lo (by simp [hs, ht]), getLsbD_permHalves s hi lo hs,
    getLsbD_permHalves t hi lo ht, List.reverse_append, List.map_append]
  by_cases hkn : k < n
  · rw [if_pos hkn, List.getD_append _ _ _ _ (by simpa [ht] using hkn)]
    simp [hk, hkn]
  · have hkm : k - n < m := by omega
    rw [if_neg hkn, List.getD_append_right _ _ _ _ (by simpa [ht] using hkn)]
    simp [hk, hkm, ht]

/-- A split-half table whose entries all lie in one half is a bit-0 table over that half. -/
theorem permHalves_of_oneHalf {w n : Nat} (t : List (Half × Nat)) (hi lo : BitVec w) (half : Half)
    (ht : ∀ p ∈ t, p.1 = half) :
    (permHalves t hi lo : BitVec n) = permBits (t.map Prod.snd) (if half = .hi then hi else lo) := by
  rw [permHalves, permBits, List.foldl_map]
  exact List.foldl_ext _ _ _ fun acc p hp => by rw [ht p hp]

/-- R407: PC-2 of C ‖ D is a selection from C joined with one from D. -/
theorem permutedChoice2_append (c d : KeyHalf) :
    permutedChoice2 (c ++ d) =
      (permBits ((splitPC2.take 24).map Prod.snd) c : BitVec 24) ++
        (permBits ((splitPC2.drop 24).map Prod.snd) d : BitVec 24) := by
  have hcut := permHalves_append (m := 24) (n := 24) (splitPC2.take 24) (splitPC2.drop 24) c d rfl rfl
  rw [List.take_append_drop] at hcut
  rw [permutedChoice2_eq_splitPC2, hi28_append, lo28_append, hcut, permHalves_of_oneHalf _ c d .hi (by decide),
    permHalves_of_oneHalf _ c d .lo (by decide), if_pos rfl, if_neg (by decide)]

/-- Settles O44: each half of the round key is a selection that the other key half is no argument of. -/
theorem roundKeyHalvesComeFromCAndD : Obligations.RoundKeyHalvesComeFromCAndD := by
  refine ⟨fun c d d' => ?_, fun c c' d => ?_⟩
  · simp only [join56_eq_append, permutedChoice2_append, hi24_append]
  · simp only [join56_eq_append, permutedChoice2_append, lo24_append]

end Sys2Proof.Proofs
end

section
/-! PROOF. The substitution by groups (40_bit_packing_control.md R408): the eight nibbles are joined in the order of the boxes,
so nibble j is a slice that drops those of the boxes after j. -/

namespace Sys2Proof.Proofs

open Sys2Proof.Machine

/-- R408: nibble j of the substitution is the output of box j on group j. -/
theorem extractLsb'_substitute (x : RoundKey) (j : Nat) (h1 : 1 ≤ j) (h8 : j ≤ 8) :
    (substitute x).extractLsb' (32 - 4 * j) 4 = sboxLookup (sboxTable j) (sboxGroup j x) := by
  interval_cases j <;>
    simp [substitute, BitVec.extractLsb'_append_eq_of_le (w := 4), BitVec.extractLsb'_append_eq_right (w' := 4),
      BitVec.extractLsb'_eq_self]

/-- Settles O41: the nibble of each box, and where its group and nibble lie, as slices. -/
theorem substitutionActsPerGroup : Obligations.SubstitutionActsPerGroup := by
  intro x j h1 h8
  refine ⟨extractLsb'_substitute x j h1 h8, fun p hp => ?_, fun p hp => ?_, fun h4 => ?_, fun h5 => ?_⟩
  · have hpos : 48 + 1 - (48 - 6 * j + 6) + p = 6 * j - 5 + p := by omega
    rw [← hpos, ← getLsbD_extractLsb'_eq_fips x (48 - 6 * j) 6 p hp (by omega)]
  · have hpos : 32 + 1 - (32 - 4 * j + 4) + p = 4 * j - 3 + p := by omega
    rw [← hpos, ← getLsbD_extractLsb'_eq_fips (substitute x) (32 - 4 * j) 4 p hp (by omega)]
  · have hlow : 24 + (24 - 6 * j) = 48 - 6 * j := by omega
    rw [hi24, extractLsb'_extractLsb' x 24 24 _ 6 (by omega), hlow]
  · rw [lo24, extractLsb'_extractLsb' x 0 24 _ 6 (by omega), Nat.zero_add]

end Sys2Proof.Proofs
end

section
/-! PROOF. RIP and IP undo each other (41_permutation_unit.md R521): two table permutations in a row are the permutation of the
composed table, and both composed tables count 1 to 64. -/

namespace Sys2Proof.Proofs

open Sys2Proof.Machine

/-- R500: the table of `s` followed by `t`, whose output position i copies input position S[T[i]]. -/
def composeTables (s t : List Nat) : List Nat := t.map fun p => s.getD (p - 1) 0

theorem getD_composeTables (s t : List Nat) (i : Nat) (hi : i < t.length) :
    (composeTables s t).getD i 0 = s.getD (t.getD i 0 - 1) 0 := by
  simp [composeTables, hi]

/-- R500: two table permutations in a row are one, when the second table's entries are positions of the first one's output. -/
theorem perm_perm {m n k : Nat} (s t : List Nat) (x : BitVec m) (hs : s.length = n) (ht : ∀ p ∈ t, 1 ≤ p ∧ p ≤ n) :
    (perm t (perm s x : BitVec n) : BitVec k) = perm (composeTables s t) x := by
  conv_rhs => rw [perm, composeTables, List.foldl_map]
  rw [perm]
  refine List.foldl_ext _ _ _ fun acc p hp => ?_
  obtain ⟨h1, hn⟩ := ht p hp
  rw [fips, getLsbD_perm_position s x hs p h1 hn, fips]

/-- R500: the table that counts 1 to n has i as its entry for position i. -/
theorem getD_range'_position {n i : Nat} (h1 : 1 ≤ i) (hn : i ≤ n) : (List.range' 1 n).getD (i - 1) 0 = i := by
  have hi : i - 1 < (List.range' 1 n).length := by
    rw [List.length_range']
    omega
  rw [List.getD_eq_getElem _ _ hi, List.getElem_range']
  omega

/-- R500: the table that counts 1 to n copies every position to itself. -/
theorem perm_range' {n : Nat} (x : BitVec n) : perm (List.range' 1 n) x = x := by
  refine BitVec.eq_of_getLsbD_eq fun k hk => ?_
  have hpos := getLsbD_perm_position (List.range' 1 n) x List.length_range' (n - k) (by omega) (by omega)
  rwa [getD_range'_position (by omega) (by omega), Nat.sub_sub_self hk.le] at hpos

/-- R521: a table undoes another when the two composed count 1 to n. -/
theorem perm_perm_cancel {n : Nat} (s t : List Nat) (x : BitVec n) (hs : s.length = n) (ht : ∀ p ∈ t, 1 ≤ p ∧ p ≤ n)
    (hst : composeTables s t = List.range' 1 n) : perm t (perm s x : BitVec n) = x := by
  rw [perm_perm s t x hs ht, hst, perm_range']

/-- R521: RIP[IP[i]] = i, for every i at once. -/
theorem composeTables_RIP_IP : composeTables tableRIP tableIP = List.range' 1 64 := by decide

/-- R521: IP[RIP[i]] = i, for every i at once. -/
theorem composeTables_IP_RIP : composeTables tableIP tableRIP = List.range' 1 64 := by decide

@[simp] theorem inverseInitialPermutation_initialPermutation (x : Block) :
    inverseInitialPermutation (initialPermutation x) = x :=
  perm_perm_cancel tableIP tableRIP x rfl (by decide) composeTables_IP_RIP

@[simp] theorem initialPermutation_inverseInitialPermutation (x : Block) :
    initialPermutation (inverseInitialPermutation x) = x :=
  perm_perm_cancel tableRIP tableIP x rfl (by decide) composeTables_RIP_IP

/-- Settles O38, from the two composed tables; the example is RIP undoing IP at 0x01234567 89ABCDEF. -/
theorem ripInvertsIp : Obligations.RipInvertsIp := by
  refine ⟨fun i h1 h64 => ?_, inverseInitialPermutation_initialPermutation,
    initialPermutation_inverseInitialPermutation, ?_⟩
  · have hi : i - 1 < tableIP.length := by
      change i - 1 < 64
      omega
    rw [← getD_composeTables tableRIP tableIP (i - 1) hi, composeTables_RIP_IP, getD_range'_position h1 h64]
  · have hip : initialPermutation 0x0123456789ABCDEF#64 = 0xCC00CCFFF0AAF0AA#64 := by decide +kernel
    rw [← hip, inverseInitialPermutation_initialPermutation]

end Sys2Proof.Proofs
end

section
/-! PROOF. The S-boxes (42_sbox_substitution.md R611, R612): the rows checked box by box, and each flat array as the row and
column table written out in the order of the 6-bit input. -/

namespace Sys2Proof.Proofs

open Sys2Proof.Machine

/-- R611: every box has four rows, each with the numbers 0 to 15 in some order. -/
theorem sboxTable_rows_perm (j : Nat) (h1 : 1 ≤ j) (h8 : j ≤ 8) :
    (sboxTable j).length = 4 ∧ ∀ row ∈ sboxTable j, row.Perm (List.range 16) := by
  interval_cases j <;> exact ⟨rfl, by decide⟩

/-- Settles O39, box by box. -/
theorem sboxRowsArePermutations : Obligations.SboxRowsArePermutations :=
  sboxTable_rows_perm

/-- R612: a row and column table written out by its input b = 0 to 63. -/
def flattenSbox (table : List (List Nat)) : List Nat :=
  (List.range 64).map fun b => (table.getD (sboxRow (BitVec.ofNat 6 b)) []).getD (sboxCol (BitVec.ofNat 6 b)) 0

theorem length_flattenSbox (table : List (List Nat)) : (flattenSbox table).length = 64 := by
  rw [flattenSbox, List.length_map, List.length_range]

/-- R600, R612: entry b of the written-out table is the lookup of b by rows and columns, for any table. -/
theorem ofNat_getD_flattenSbox (table : List (List Nat)) (b : BitVec 6) :
    BitVec.ofNat 4 ((flattenSbox table).getD b.toNat 0) = sboxLookup table b := by
  have hb : b.toNat < (flattenSbox table).length := by
    rw [length_flattenSbox]
    exact b.isLt
  rw [List.getD_eq_getElem _ _ hb]
  simp only [flattenSbox, List.getElem_map, List.getElem_range, BitVec.ofNat_toNat, BitVec.setWidth_eq, sboxLookup]

/-- R612: the spec's eight flat arrays are the eight tables written out. -/
theorem sboxFlat_eq_flattenSbox (j : Nat) (h1 : 1 ≤ j) (h8 : j ≤ 8) : sboxFlat j = flattenSbox (sboxTable j) := by
  interval_cases j <;> decide

/-- Settles O40, from the flat arrays as the tables written out. -/
theorem flatSboxesAreTheSameFunction : Obligations.FlatSboxesAreTheSameFunction := by
  intro j h1 h8
  rw [sboxFlat_eq_flattenSbox j h1 h8]
  exact ⟨length_flattenSbox (sboxTable j), ofNat_getD_flattenSbox (sboxTable j)⟩

end Sys2Proof.Proofs
end

section
/-! PROOF. The rotation of a key half (43_key_schedule_engine.md R701): where each bit of the result comes from, and that two
rotations in a row, together by no more than the width, are one. -/

namespace Sys2Proof.Proofs

open Sys2Proof.Machine

/-- R701: the low `s` bits of the rotated half are the top ones of `x`; every other bit moved up by `s`. -/
theorem getLsbD_rotl28 (x : KeyHalf) (s i : Nat) (hs : s ≤ 28) (hi : i < 28) :
    (rotl28 x s).getLsbD i = x.getLsbD (if i < s then 28 - s + i else i - s) := by
  rw [rotl28, BitVec.getLsbD_or, BitVec.getLsbD_shiftLeft, BitVec.getLsbD_ushiftRight]
  by_cases his : i < s
  · simp [his]
  · have hge : 28 ≤ 28 - s + i := by omega
    simp [his, hi, BitVec.getLsbD_of_ge x _ hge]

theorem rotl28_zero (x : KeyHalf) : rotl28 x 0 = x :=
  BitVec.eq_of_getLsbD_eq fun i hi => by
    rw [getLsbD_rotl28 x 0 i (Nat.zero_le _) hi, if_neg (Nat.not_lt_zero i), Nat.sub_zero]

/-- R702: a rotation by the whole width moves nothing. -/
theorem rotl28_full (x : KeyHalf) : rotl28 x 28 = x :=
  BitVec.eq_of_getLsbD_eq fun i hi => by
    rw [getLsbD_rotl28 x 28 i le_rfl hi, if_pos hi, Nat.sub_self, Nat.zero_add]

/-- R702: rotations add up. -/
theorem rotl28_rotl28 (x : KeyHalf) (s t : Nat) (h : s + t ≤ 28) : rotl28 (rotl28 x s) t = rotl28 x (s + t) := by
  refine BitVec.eq_of_getLsbD_eq fun i hi => ?_
  have hsrc : (if i < t then 28 - t + i else i - t) < 28 := by split <;> omega
  rw [getLsbD_rotl28 _ t i (by omega) hi, getLsbD_rotl28 x s _ (by omega) hsrc, getLsbD_rotl28 x (s + t) i h hi]
  congr 1
  split_ifs <;> omega

/-- R701: bit i of `x` moves to bit i + s, counted round the 28 places. -/
theorem getLsbD_rotl28_add_mod (x : KeyHalf) (s i : Nat) (hs : s < 28) (hi : i < 28) :
    (rotl28 x s).getLsbD ((i + s) % 28) = x.getLsbD i := by
  rw [getLsbD_rotl28 x s _ hs.le (Nat.mod_lt _ (by omega))]
  congr 1
  split_ifs <;> omega

end Sys2Proof.Proofs
end

section
/-! PROOF. The key schedule (43_key_schedule_engine.md R700, R702 to R704): the halves of round n as rotations of the halves of
PC-1's output, and the schedule as a function of that output alone. -/

namespace Sys2Proof.Proofs

open Sys2Proof.Machine Sys2Proof.Laws

/-- R702: one round rotates both halves by the round's own amount. -/
theorem keyHalves_pred (k : Block) (n : Nat) (h1 : 1 ≤ n) :
    keyHalves k n =
      (rotl28 (keyHalves k (n - 1)).1 (shiftAmount n), rotl28 (keyHalves k (n - 1)).2 (shiftAmount n)) := by
  cases n with
  | zero => omega
  | succ m => rfl

/-- R702: t_n is the running sum of s_1 to s_n. -/
theorem cumulativeShift_eq_sum (n : Nat) : cumulativeShift n = ((List.range' 1 n).map shiftAmount).sum := by
  induction n with
  | zero => rfl
  | succ n ih =>
    rw [cumulativeShift, ih, List.range'_1_concat, List.map_append, List.sum_append, Nat.add_comm 1 n]
    simp

theorem cumulativeShift_le (n : Nat) (h : n ≤ 16) : cumulativeShift n ≤ 28 := by
  interval_cases n <;> decide

/-- R702: the rotations of rounds 1 to n add up to one rotation by t_n. -/
theorem keyHalves_eq_rotl28 (k : Block) (n : Nat) (h : n ≤ 16) :
    keyHalves k n =
      (rotl28 (hi28 (permutedChoice1 k)) (cumulativeShift n), rotl28 (lo28 (permutedChoice1 k)) (cumulativeShift n)) := by
  induction n with
  | zero => rw [keyHalves, cumulativeShift, rotl28_zero, rotl28_zero]
  | succ n ih =>
    have hsum : cumulativeShift n + shiftAmount (n + 1) ≤ 28 := cumulativeShift_le (n + 1) h
    rw [keyHalves, ih (by omega), cumulativeShift, rotl28_rotl28 _ _ _ hsum, rotl28_rotl28 _ _ _ hsum]

/-- R702: the sixteen rotations come to the whole width, so the halves end where they began. -/
theorem keyHalves_sixteen (k : Block) : keyHalves k 16 = (hi28 (permutedChoice1 k), lo28 (permutedChoice1 k)) := by
  have htotal : cumulativeShift 16 = 28 := rfl
  rw [keyHalves_eq_rotl28 k 16 le_rfl, htotal, rotl28_full, rotl28_full]

/-- Settles O42: the step of a round, and the rotations added up. -/
theorem keyHalvesRotateCumulatively : Obligations.KeyHalvesRotateCumulatively := by
  refine ⟨by decide, by decide, cumulativeShift_eq_sum, getLsbD_rotl28_add_mod,
    fun x => getLsbD_rotl28_add_mod x 1 27 (by omega) (by omega), fun k => ⟨fun n h1 _ => ?_, fun n _ h16 => ?_, ?_⟩⟩
  · exact Prod.ext_iff.mp (keyHalves_pred k n h1)
  · exact Prod.ext_iff.mp (keyHalves_eq_rotl28 k n h16)
  · exact Prod.ext_iff.mp (keyHalves_sixteen k)

/-- Settles O45: slot n - 1 holds the key of round n. -/
theorem roundKeysComeFromRotatedHalves : Obligations.RoundKeysComeFromRotatedHalves := by
  refine fun k => ⟨rfl, fun n h1 h16 => ⟨keyHalves_pred k n h1, ?_⟩⟩
  rw [getElem_keySchedule k (n - 1) (by omega), Nat.sub_add_cancel h1, roundKeyOfRound, join56_eq_append]

/-- R500: a table permutation reads its input only at the positions the table names. -/
theorem perm_congr {m n : Nat} (t : List Nat) (x y : BitVec m) (h : ∀ p ∈ t, fips x p = fips y p) :
    (perm t x : BitVec n) = perm t y :=
  List.foldl_ext _ _ _ fun acc p hp => by rw [h p hp]

/-- R540, R405: PC-1 names no parity position. -/
theorem tablePC1_names_no_parity : ∀ p ∈ tablePC1, 1 ≤ p ∧ p ≤ 64 ∧ p ∉ parityPositions := by decide

/-- R703: the key enters the rounds through PC-1 alone. -/
theorem keyHalves_congr {k k' : Block} (h : permutedChoice1 k = permutedChoice1 k') (n : Nat) :
    keyHalves k n = keyHalves k' n := by
  induction n with
  | zero => rw [keyHalves, keyHalves, h]
  | succ n ih => rw [keyHalves, keyHalves, ih]

theorem keySchedule_congr {k k' : Block} (h : permutedChoice1 k = permutedChoice1 k') :
    keySchedule k = keySchedule k' := by
  refine Vector.ext fun i hi => ?_
  rw [getElem_keySchedule, getElem_keySchedule, roundKeyOfRound, roundKeyOfRound, keyHalves_congr h]

/-- Settles O43: keys that agree outside the parity positions have the same PC-1 output. -/
theorem scheduleIgnoresParityBits : Obligations.ScheduleIgnoresParityBits := by
  refine ⟨fun _ => rfl, fun k k' hagree => keySchedule_congr (perm_congr tablePC1 k k' fun p hp => ?_)⟩
  obtain ⟨h1, h64, hparity⟩ := tablePC1_names_no_parity p hp
  exact hagree p h1 h64 hparity

end Sys2Proof.Proofs
end

section
/-! PROOF. LOAD_KEY (43_key_schedule_engine.md R710): its effect on the core as one update, in every state. -/

namespace Sys2Proof.Proofs

open Sys2Proof.Machine Sys2Proof.Laws

/-- R710: the writes of LOAD_KEY, all at once. -/
theorem loadKeyEffect_eq_update (c : CoreState) :
    loadKeyEffect c = { c with
      rk := some (keySchedule (c.keyHi ++ c.keyLo)), doutHi := 0#32, doutLo := 0#32, doutValid := false,
      keyHi := 0#32, keyLo := 0#32, err := 0#4 } := rfl

/-- Settles O9: LOAD_KEY has no other outcome than its effect on the core. -/
theorem loadKeyCompletesInEveryState : Obligations.LoadKeyCompletesInEveryState := by
  intro s
  rw [exec_eq, commandEffect, loadKeyEffect_eq_update, State.withCore]

end Sys2Proof.Proofs
end

section
/-! PROOF. The Feistel round (44_feistel_round_unit.md R800 to R803): key mixing half by half, and the round undone. -/

namespace Sys2Proof.Proofs

open Sys2Proof.Machine

theorem hi24_append_lo24 (x : RoundKey) : hi24 x ++ lo24 x = x :=
  (BitVec.extractLsb'_append_extractLsb'_eq_extractLsb' rfl).trans BitVec.extractLsb'_eq_self

/-- R800: key mixing may be done on the 24-bit halves apart. -/
theorem xor_eq_join48_xor_halves (x k : RoundKey) :
    x ^^^ k = join48 (hi24 x ^^^ hi24 k) (lo24 x ^^^ lo24 k) := by
  rw [join48_eq_append, ← BitVec.xor_append, hi24_append_lo24, hi24_append_lo24]

/-- R803: both sides compute f of the half that the round left as it was, and the two xors with it cancel. -/
theorem feistelUnround_feistelRound (lr : Word × Word) (k : RoundKey) :
    feistelUnround (feistelRound lr k) k = lr := by
  rw [feistelRound, feistelUnround, BitVec.xor_assoc, BitVec.xor_self, BitVec.xor_zero]

/-- Settles O46: the steps are f's definition and the round's; the mixing half by half is `xor_eq_join48_xor_halves`. -/
theorem roundFollowsItsSteps : Obligations.RoundFollowsItsSteps :=
  ⟨fun r k => ⟨rfl, xor_eq_join48_xor_halves (expansion r) k⟩, fun _ _ _ => rfl⟩

/-- Settles O48: the first equation is unround's definition, the second `feistelUnround_feistelRound`. -/
theorem unroundInvertsRound : Obligations.UnroundInvertsRound :=
  fun lr k => ⟨rfl, feistelUnround_feistelRound lr k⟩

end Sys2Proof.Proofs
end

section
/-! PROOF. The rounds run backwards (45_des_core_block_transform.md R901 to R904): a round undone is the same round on the
swapped pair, so running the keys in the opposite order over the swapped pair ends at the swapped first pair, and the one
half-swap of the pre-output hands each transform the pair it needs. -/

namespace Sys2Proof.Proofs

open Sys2Proof.Machine

@[simp] theorem runRounds_nil (lr : Word × Word) : runRounds lr [] = lr := rfl

@[simp] theorem runRounds_cons (lr : Word × Word) (k : RoundKey) (keys : List RoundKey) :
    runRounds lr (k :: keys) = runRounds (feistelRound lr k) keys := rfl

/-- R901: the last key of a list is the key of the last round. -/
@[simp] theorem runRounds_concat (lr : Word × Word) (keys : List RoundKey) (k : RoundKey) :
    runRounds lr (keys ++ [k]) = feistelRound (runRounds lr keys) k :=
  List.foldl_concat feistelRound lr k keys

/-- R803, R903: unround is the round itself between two half-swaps. -/
theorem feistelUnround_eq_swap (lr : Word × Word) (k : RoundKey) :
    feistelUnround lr k = (feistelRound lr.swap k).swap := rfl

/-- A round over the swapped result of the round with the same key gives the pair before it, swapped. -/
theorem feistelRound_swap_feistelRound (lr : Word × Word) (k : RoundKey) :
    feistelRound (feistelRound lr k).swap k = lr.swap := by
  rw [← Prod.swap_eq_iff_eq_swap, ← feistelUnround_eq_swap, feistelUnround_feistelRound]

/-- R904: the same rounds in the opposite order, over the swapped pair, end at the swapped first pair. -/
theorem runRounds_reverse_swap (keys : List RoundKey) (lr : Word × Word) :
    runRounds (runRounds lr keys).swap keys.reverse = lr.swap := by
  induction keys generalizing lr with
  | nil => rfl
  | cons k keys ih =>
    rw [List.reverse_cons, runRounds_cons, runRounds_concat, ih, feistelRound_swap_feistelRound]

/-- R406, R902: the pre-output is R16 ‖ L16. -/
theorem preOutput_eq_append (lr : Word × Word) : preOutput lr = lr.2 ++ lr.1 := swap64_append lr.1 lr.2

/-- R902: a transform that is fed a pre-output through RIP starts at the swapped pair. -/
theorem initialHalves_inverseInitialPermutation_preOutput (lr : Word × Word) :
    initialHalves (inverseInitialPermutation (preOutput lr)) = lr.swap := by
  rw [initialHalves, initialPermutation_inverseInitialPermutation, preOutput_eq_append, hi32_append, lo32_append, Prod.swap]

/-- R406: the pre-output of the swapped first pair leads back to the block. -/
theorem inverseInitialPermutation_preOutput_swap_initialHalves (b : Block) :
    inverseInitialPermutation (preOutput (initialHalves b).swap) = b := by
  rw [preOutput_eq_append, initialHalves, Prod.swap, hi32_append_lo32, inverseInitialPermutation_initialPermutation]

/-- R904: two transforms whose round keys are each other's reverse cancel, whichever schedules and directions give them. -/
theorem blockTransform_blockTransform_of_reverse (b : Block) {rk rk' : Schedule} {d d' : Direction}
    (h : keyOrder d' rk' = (keyOrder d rk).reverse) : blockTransform (blockTransform b rk d) rk' d' = b := by
  rw [blockTransform, blockTransform, initialHalves_inverseInitialPermutation_preOutput, h, runRounds_reverse_swap,
    inverseInitialPermutation_preOutput_swap_initialHalves]

theorem keyOrder_dec (rk : Schedule) : keyOrder .dec rk = (keyOrder .enc rk).reverse := rfl

theorem keyOrder_enc (rk : Schedule) : keyOrder .enc rk = (keyOrder .dec rk).reverse := by
  rw [keyOrder_dec, List.reverse_reverse]

/-- Settles O50: each direction's key order is the other's reverse. -/
theorem blockTransformsInvertEachOther : Obligations.BlockTransformsInvertEachOther :=
  fun b rk => ⟨blockTransform_blockTransform_of_reverse b (keyOrder_dec rk),
    blockTransform_blockTransform_of_reverse b (keyOrder_enc rk)⟩

@[simp] theorem length_keyOrder (d : Direction) (rk : Schedule) : (keyOrder d rk).length = 16 := by
  cases d with
  | enc => exact rk.length_toList
  | dec => rw [keyOrder_dec, List.length_reverse, keyOrder, rk.length_toList]

/-- R901: position i of the encryption order is slot i of the schedule. -/
theorem getElem?_keyOrder_enc (rk : Schedule) (i : Nat) (hi : i < 16) : (keyOrder .enc rk)[i]? = some rk[i] := by
  rw [keyOrder, Vector.getElem?_toList, Vector.getElem?_eq_getElem hi]

/-- R901: position i of the decryption order is slot 15 - i of the schedule. -/
theorem getElem?_keyOrder_dec (rk : Schedule) (i : Nat) (hi : i < 16) : (keyOrder .dec rk)[i]? = some rk[15 - i] := by
  have hl := length_keyOrder .enc rk
  rw [keyOrder_dec, List.getElem?_reverse (by omega), hl]
  exact getElem?_keyOrder_enc rk (15 - i) (by omega)

/-- Settles O49: round n's key is at position n - 1 of the order, and 15 - (n - 1) = 16 - n. -/
theorem roundKeyOrderOfEachDirection : Obligations.RoundKeyOrderOfEachDirection := by
  refine ⟨fun rk n h1 h2 => ⟨getElem?_keyOrder_enc rk (n - 1) (by omega), ?_⟩, fun rk d => length_keyOrder d rk,
    runRounds_concat⟩
  have hn : 15 - (n - 1) = 16 - n := by omega
  simp only [getElem?_keyOrder_dec rk (n - 1) (by omega), hn]

end Sys2Proof.Proofs
end

section
/-! PROOF. The cipher commands (45_des_core_block_transform.md R910 to R915): the effect on the core as one update, with a key
and without, for either direction; and the command step read off the word. -/

namespace Sys2Proof.Proofs

open Sys2Proof.Machine Sys2Proof.Laws

/-- R912: the one write of a cipher command without a key. -/
theorem cipherEffect_noKey_eq_update (d : Direction) (c : CoreState) (h : c.rk = none) :
    cipherEffect d c = { c with err := 2#4 } := cipherEffect_noKey d c h

/-- R910, R911: the writes of a cipher command with a key, all at once. -/
theorem cipherEffect_key_eq_update (d : Direction) (c : CoreState) (rk : Schedule) (h : c.rk = some rk) :
    cipherEffect d c = { c with
      doutHi := (blockTransform (c.dinHi ++ c.dinLo) rk d).extractLsb' 32 32,
      doutLo := (blockTransform (c.dinHi ++ c.dinLo) rk d).extractLsb' 0 32,
      doutValid := true, err := 0#4 } := cipherEffect_key d c rk h

theorem exec_encrypt (s : State) : exec .encrypt s = .next { s with core := cipherEffect .enc s.core } :=
  exec_eq .encrypt s

theorem exec_decrypt (s : State) : exec .decrypt s = .next { s with core := cipherEffect .dec s.core } :=
  exec_eq .decrypt s

/-- Settles O8, from the word's own effect in each case. -/
theorem cmdStepHasTheSpecsFourCases : Obligations.CmdStepHasTheSpecsFourCases := by
  refine fun c w => ⟨?_, fun d hd => ?_, cmdStep_illegal c w⟩
  · rintro rfl
    rw [cmdStep_loadKey, loadKeyEffect_eq_update]
  · have hw : cmdStep c w = cipherEffect d c := by
      obtain ⟨rfl, rfl⟩ | ⟨rfl, rfl⟩ := hd
      · exact cmdStep_encrypt c
      · exact cmdStep_decrypt c
    rw [hw]
    exact ⟨cipherEffect_noKey_eq_update d c, cipherEffect_key_eq_update d c⟩

/-- Settles O10, from the effect with a key. -/
theorem encryptCompletesWithAKey : Obligations.EncryptCompletesWithAKey := by
  intro s rk h
  rw [exec_encrypt, cipherEffect_key_eq_update .enc s.core rk h]

/-- Settles O11, from the effect with a key. -/
theorem decryptCompletesWithAKey : Obligations.DecryptCompletesWithAKey := by
  intro s rk h
  rw [exec_decrypt, cipherEffect_key_eq_update .dec s.core rk h]

/-- Settles O12: KEY_VALID = 0 is RK holding no schedule, and then either direction's effect is the same. -/
theorem cipherWithoutKeyRecordsNoKey : Obligations.CipherWithoutKeyRecordsNoKey := by
  intro s i hi hk
  have hrk : s.core.rk = none := by simpa [CoreState.keyValid] using hk
  obtain rfl | rfl := hi
  · rw [exec_encrypt, cipherEffect_noKey_eq_update .enc s.core hrk]
  · rw [exec_decrypt, cipherEffect_noKey_eq_update .dec s.core hrk]

end Sys2Proof.Proofs
end

section
/-! PROOF. Host accesses (46_host_interface.md R1000 to R1003): an access is refused or reaches the one register at its offset,
and there a write or a read does what that register's row of the tables says. -/

namespace Sys2Proof.Proofs

open Sys2Proof.Machine Sys2Proof.Laws

/-- R1002: the three conditions of admission. -/
theorem admitted_iff (t : Transaction) : t.admitted = true ↔ t.size = 32 ∧ t.off % 4 = 0 ∧ t.off ≤ 0x1C := by
  simp [Transaction.admitted, and_assoc]

/-- R206: an access that is not admitted reaches no register. -/
theorem target_of_not_admitted {t : Transaction} (h : ¬ (t.size = 32 ∧ t.off % 4 = 0 ∧ t.off ≤ 0x1C)) :
    t.target = none := by
  rw [← admitted_iff] at h
  rw [Transaction.target, if_neg h]

/-- R101: the register found at an offset is the one whose offset it is. -/
theorem offset_of_regAtOffset {off : Nat} {r : Reg} (h : regAtOffset off = some r) : r.offset = off := by
  unfold regAtOffset at h
  split at h <;> cases h <;> rfl

/-- R101: an access reaches no other register than the one at its offset. -/
theorem offset_of_target {t : Transaction} {r : Reg} (h : t.target = some r) : r.offset = t.off := by
  unfold Transaction.target at h
  split at h
  · exact offset_of_regAtOffset h
  · cases h

/-- R206, R1002: an access that reaches no register is a BusError of its offset. -/
theorem hostStep_of_no_target (c : CoreState) {t : Transaction} (h : t.target = none) : hostStep c t = .error ⟨t.off⟩ := by
  simp only [hostStep, h]

/-- R1000: a write that reaches a register answers writeRegister's state and no word. -/
theorem hostStep_write (c : CoreState) {t : Transaction} {r : Reg} (hr : t.target = some r) (hd : t.dir = .write) :
    hostStep c t = .ok (writeRegister r t.data c, none) := by
  simp only [hostStep, hr, hd]

/-- R1001: a read that reaches a register answers the same core and readRegister's word. -/
theorem hostStep_read (c : CoreState) {t : Transaction} {r : Reg} (hr : t.target = some r) (hd : t.dir = .read) :
    hostStep c t = .ok (c, some (readRegister r c)) := by
  simp only [hostStep, hr, hd]

/-- R1002: an access that is not admitted is a BusError of its offset. -/
theorem hostStep_of_not_admitted (c : CoreState) {t : Transaction} (h : ¬ (t.size = 32 ∧ t.off % 4 = 0 ∧ t.off ≤ 0x1C)) :
    hostStep c t = .error ⟨t.off⟩ := hostStep_of_no_target c (target_of_not_admitted h)

/-- R1001: a 32-bit read at a register's offset, whatever word the access carries. -/
theorem hostStep_read_offset (c : CoreState) (r : Reg) (v : Word) :
    hostStep c ⟨.read, r.offset, 32, v⟩ = .ok (c, some (readRegister r c)) := by
  have hr : (⟨.read, r.offset, 32, v⟩ : Transaction).target = some r := target_writeAccess r v
  exact hostStep_read c hr rfl

/-- R1000, R107: STATUS is made of KEY_VALID, DOUT_VALID and ERR, which no register but CMD writes. -/
theorem writeRegister_statusWord (r : Reg) (v : Word) (c : CoreState) (hr : r ≠ .cmd) :
    (writeRegister r v c).statusWord = c.statusWord := by
  obtain ⟨hrk, hvalid, herr, -⟩ := writeRegister_frame r v c hr
  simp only [CoreState.statusWord, CoreState.keyValid, hrk, hvalid, herr]

/-- R1000: a write that completes away from CMD's offset leaves the STATUS word. -/
theorem statusWord_of_write {c c' : CoreState} {t : Transaction} {w : Option Word} (hd : t.dir = .write)
    (hoff : t.off ≠ 0x10) (h : hostStep c t = .ok (c', w)) : c'.statusWord = c.statusWord := by
  cases hr : t.target with
  | none => simp [hostStep_of_no_target c hr] at h
  | some r =>
    have hcmd : r ≠ .cmd := fun he => hoff (by rw [← offset_of_target hr, he, Reg.offset])
    rw [hostStep_write c hr hd] at h
    cases h
    exact writeRegister_statusWord r t.data c hcmd

/-- Settles O20: an admitted access reaches a register, and there either direction answers a state. -/
theorem admissionDecidesBusError : Obligations.AdmissionDecidesBusError := by
  refine fun c t => ⟨fun h => ?_, hostStep_of_not_admitted c⟩
  obtain ⟨r, hr⟩ := target_of_admitted t ((admitted_iff t).mpr h)
  cases hd : t.dir with
  | read => exact ⟨_, hostStep_read c hr hd⟩
  | write => exact ⟨_, hostStep_write c hr hd⟩

/-- Settles O17: the write of each register, at its offset. -/
theorem hostWritesFollowTheTable : Obligations.HostWritesFollowTheTable := by
  refine fun c off v => ⟨fun _ h => hostStep_of_not_admitted c h, fun _ _ hoff h => statusWord_of_write rfl hoff h,
    ?_, ?_, ?_, ?_, ?_, ?_⟩
  · rintro rfl
    exact hostStep_writeAccess c .keyHi v
  · rintro rfl
    exact hostStep_writeAccess c .keyLo v
  · rintro rfl
    exact hostStep_writeAccess c .dinHi v
  · rintro rfl
    exact hostStep_writeAccess c .dinLo v
  · rintro rfl
    exact hostStep_writeAccess c .cmd v
  · rintro (rfl | rfl | rfl)
    · exact hostStep_writeAccess c .status v
    · exact hostStep_writeAccess c .doutHi v
    · exact hostStep_writeAccess c .doutLo v

/-- Settles O18: the read of each register, at its offset. -/
theorem hostReadsFollowTheTable : Obligations.HostReadsFollowTheTable := by
  refine fun c off v => ⟨fun _ h => hostStep_of_not_admitted c h, ?_, ?_, ?_, ?_, ?_, ?_⟩
  · rintro (rfl | rfl | rfl)
    · exact hostStep_read_offset c .keyHi v
    · exact hostStep_read_offset c .keyLo v
    · exact hostStep_read_offset c .cmd v
  · rintro rfl
    exact hostStep_read_offset c .dinHi v
  · rintro rfl
    exact hostStep_read_offset c .dinLo v
  · rintro rfl
    exact hostStep_read_offset c .status v
  · rintro rfl
    exact hostStep_read_offset c .doutHi v
  · rintro rfl
    exact hostStep_read_offset c .doutLo v

end Sys2Proof.Proofs
end

section
/-! PROOF. The façade (46_host_interface.md R1011 to R1014): under the schedule in RK a block sequence returns the transform of
its block and leaves RK, so a call returns the transforms of its chunks in their order, and the transforms of the other
direction give the data back. -/

namespace Sys2Proof.Proofs

open Sys2Proof.Machine Sys2Proof.Laws

/-- R1011: the sequence of construct leaves the schedule of its key in RK. -/
theorem loadKeySequence_rk (k : Block) (c : CoreState) : (loadKeySequence k c).rk = some (keySchedule k) := by
  have h : loadKeySequence k c = loadKeyEffect { c with keyHi := hi32 k, keyLo := lo32 k } := cmdStep_loadKey _
  rw [h, loadKeyEffect_eq_update]
  simp only [hi32_append_lo32]

/-- The cipher command of a direction (R910, R911). -/
def cipherCommand (d : Direction) : Instr :=
  match d with
  | .enc => .encrypt
  | .dec => .decrypt

theorem cmdStep_cipherCommand (d : Direction) (c : CoreState) :
    cmdStep c (encode (cipherCommand d)) = cipherEffect d c := by
  cases d with
  | enc => exact cmdStep_encrypt c
  | dec => exact cmdStep_decrypt c

/-- R1012: the core after the accesses of one block. -/
theorem blockSequence_core (d : Direction) (b : Block) (c : CoreState) :
    (blockSequence (cipherCommand d) b c).2 = cipherEffect d { c with dinHi := hi32 b, dinLo := lo32 b } :=
  cmdStep_cipherCommand d _

/-- R1012, R111: the accesses of one block leave RK. -/
theorem blockSequence_rk (d : Direction) (b : Block) (c : CoreState) :
    (blockSequence (cipherCommand d) b c).2.rk = c.rk := by
  rw [blockSequence_core, cipherEffect_rk]

/-- R910, R911, R403: under a schedule the result of a cipher command is the transform of its operand. -/
theorem resultBlock_cipherEffect (d : Direction) (c : CoreState) (rk : Schedule) (h : c.rk = some rk) :
    (cipherEffect d c).resultBlock = blockTransform c.blockOperand rk d := by
  rw [cipherEffect_key d c rk h]
  exact hi32_append_lo32 _

/-- R1012, R910, R911: the block read back is the transform of the block written. -/
theorem blockSequence_block (d : Direction) (b : Block) (c : CoreState) (rk : Schedule) (h : c.rk = some rk) :
    (blockSequence (cipherCommand d) b c).1 = blockTransform b rk d :=
  calc (blockSequence (cipherCommand d) b c).1
      = (blockSequence (cipherCommand d) b c).2.resultBlock := rfl
    _ = (cipherEffect d { c with dinHi := hi32 b, dinLo := lo32 b }).resultBlock := by rw [blockSequence_core]
    _ = blockTransform (hi32 b ++ lo32 b) rk d := resultBlock_cipherEffect d _ rk h
    _ = blockTransform b rk d := by rw [hi32_append_lo32]

/-- R1014: the first m chunks of the data, each transformed, in their order. -/
def transformChunks (d : Direction) (rk : Schedule) (m : Nat) (data : ByteString) : ByteString :=
  (List.range m).flatMap fun n => u64ToBytes (blockTransform (bytesToU64 ((data.drop (8 * n)).take 8)) rk d)

theorem transformChunks_zero (d : Direction) (rk : Schedule) (data : ByteString) : transformChunks d rk 0 data = [] := rfl

/-- The chunks after the first are the chunks of the data after its first 8 bytes. -/
theorem transformChunks_succ (d : Direction) (rk : Schedule) (m : Nat) (data : ByteString) :
    transformChunks d rk (m + 1) data =
      u64ToBytes (blockTransform (bytesToU64 (data.take 8)) rk d) ++ transformChunks d rk m (data.drop 8) := by
  have hdrop : ∀ n, data.drop (8 * (n + 1)) = (data.drop 8).drop (8 * n) := fun n => by
    rw [List.drop_drop, Nat.mul_succ, Nat.add_comm]
  simp only [transformChunks, List.range_succ_eq_map, List.flatMap_cons, List.flatMap_map, Nat.succ_eq_add_one, hdrop,
    Nat.mul_zero, List.drop_zero]

theorem length_u64ToBytes (x : Block) : (u64ToBytes x).length = 8 := rfl

theorem length_transformChunks (d : Direction) (rk : Schedule) (m : Nat) (data : ByteString) :
    (transformChunks d rk m data).length = 8 * m := by
  simp [transformChunks, List.length_flatMap, length_u64ToBytes, Nat.mul_comm]

/-- R404: eight bytes are the bytes of the block they make. -/
theorem u64ToBytes_bytesToU64 (bs : ByteString) (h : bs.length = 8) : u64ToBytes (bytesToU64 bs) = bs := by
  match bs, h with
  | [b0, b1, b2, b3, b4, b5, b6, b7], _ => rw [bytesToU64_eight, u64ToBytes_append]

/-- R904: chunks transformed in one direction and then in the other are the data. -/
theorem transformChunks_inverse (rk : Schedule) {d d' : Direction}
    (hinv : ∀ b, blockTransform (blockTransform b rk d) rk d' = b) (m : Nat) (data : ByteString)
    (hlen : data.length = 8 * m) : transformChunks d' rk m (transformChunks d rk m data) = data := by
  induction m generalizing data with
  | zero => exact (List.eq_nil_of_length_eq_zero hlen).symm
  | succ m ih =>
    have htake : (data.take 8).length = 8 := by
      rw [List.length_take]
      omega
    have hdrop : (data.drop 8).length = 8 * m := by
      rw [List.length_drop]
      omega
    rw [transformChunks_succ d, transformChunks_succ d', List.take_left' (length_u64ToBytes _),
      List.drop_left' (length_u64ToBytes _), bytesToU64_u64ToBytes, hinv, u64ToBytes_bytesToU64 _ htake, ih _ hdrop,
      List.take_append_drop]

/-- R1012: under a schedule the chunks' sequences return the transformed chunks and leave the schedule. -/
theorem chunkSequence_of_key (d : Direction) (rk : Schedule) (m : Nat) (data : ByteString) (c : CoreState)
    (h : c.rk = some rk) :
    (chunkSequence (cipherCommand d) m data c).1 = transformChunks d rk m data ∧
      (chunkSequence (cipherCommand d) m data c).2.rk = some rk := by
  induction m generalizing data c with
  | zero => exact ⟨rfl, h⟩
  | succ m ih =>
    obtain ⟨hout, hrk⟩ := ih (data.drop 8) _ ((blockSequence_rk d (bytesToU64 (data.take 8)) c).trans h)
    refine ⟨?_, hrk⟩
    rw [transformChunks_succ, ← hout, ← blockSequence_block d _ c rk h, chunkSequence]

/-- R1012, R1013: a call on whole blocks, the empty data among them, under a schedule. -/
theorem facadeCipher_of_key (d : Direction) (rk : Schedule) (m : Nat) (data : ByteString) (c : CoreState)
    (h : c.rk = some rk) (hlen : data.length = 8 * m) :
    ∃ c', facadeCipher (cipherCommand d) data c = .ok (transformChunks d rk m data, c') ∧ c'.rk = c.rk := by
  have hmod : ¬ data.length % 8 ≠ 0 := by omega
  have hdiv : data.length / 8 = m := by omega
  rw [facadeCipher, if_neg hmod, hdiv]
  cases m with
  | zero => exact ⟨c, by rw [if_pos hlen, transformChunks_zero], rfl⟩
  | succ m =>
    obtain ⟨hout, hrk⟩ := chunkSequence_of_key d rk (m + 1) data c h
    exact ⟨_, by rw [if_neg (by omega), ← hout], hrk.trans h.symm⟩

/-- Settles O58, from a call under a schedule in each direction and the chunks transformed back. -/
theorem facadeEncryptsBlockByBlock : Obligations.FacadeEncryptsBlockByBlock := by
  refine ⟨fun kb c hkb => ⟨_, if_neg (not_not.mpr hkb), loadKeySequence_rk _ c⟩, fun kb data m c hrk hlen => ?_⟩
  obtain ⟨c1, henc, hc1⟩ := facadeCipher_of_key .enc _ m data c hrk hlen
  obtain ⟨c2, hdec, hc2⟩ := facadeCipher_of_key .dec _ m data c hrk hlen
  have hout := length_transformChunks .enc (keySchedule (bytesToU64 kb)) m data
  have hout' := length_transformChunks .dec (keySchedule (bytesToU64 kb)) m data
  refine ⟨_, _, c1, c2, henc, hc1, rfl, hdec, hc2, rfl, hout.trans hlen.symm, hout'.trans hlen.symm, fun c' hc' => ?_⟩
  obtain ⟨c3, hback, hc3⟩ := facadeCipher_of_key .dec _ m _ c' (hc'.trans hrk) hout
  have hinv := transformChunks_inverse _ (fun b => (blockTransformsInvertEachOther b (keySchedule (bytesToU64 kb))).1) m
    data hlen
  rw [hinv] at hback
  exact ⟨c3, hback, hc3.trans hc'⟩

end Sys2Proof.Proofs
end

section
/-! PROOF. The reset input (70_reset_and_hazards.md R1200, R1201): the step that serves it, in every state. -/

namespace Sys2Proof.Proofs

open Sys2Proof.Machine Sys2Proof.Laws

/-- R1200: the step that serves the reset input has one outcome, with no register of the old core in it. -/
theorem step_reset {s : State} {rest : List BusEvent} (h : s.pending = .reset :: rest) :
    step s = .next ((s.withPending rest).withCore CoreState.reset) := by
  rw [step_event s .reset rest h, serveEvent]

/-- R107, R1200: STATUS of the reset core is 0, as KEY_VALID, DOUT_VALID and ERR are. -/
theorem statusWord_reset : CoreState.reset.statusWord = 0x00000000#32 := rfl

/-- Settles O2: the core of the step's one outcome is the reset core. -/
theorem resetInputWhateverTheCoreHeld : Obligations.ResetInputWhateverTheCoreHeld := by
  intro s rest h
  refine ⟨_, step_reset h, ?_⟩
  rw [withCore_core]
  exact ⟨rfl, statusWord_reset⟩

end Sys2Proof.Proofs
end

section
/-! PROOF. The invariant of the core and its ledger over one step (10_state.md sections 2 to 4): each command, and so each event,
keeps the four parts of the invariant; the ledger follows event by event. -/

namespace Sys2Proof.Proofs

open Sys2Proof.Machine Sys2Proof.Safety Sys2Proof.Laws

/-- R1200: the core at reset meets the invariant. -/
theorem coreInv_reset : CoreInv CoreState.reset where
  err := .inl rfl
  schedule := nofun
  result := nofun
  clear := fun _ => ⟨rfl, rfl⟩

/-- R710: LOAD_KEY leads to the invariant from every core, since it writes all that the invariant speaks of. -/
theorem coreInv_loadKeyEffect (c : CoreState) : CoreInv (loadKeyEffect c) where
  err := .inl rfl
  schedule := by
    rintro _ ⟨⟩
    exact ⟨_, rfl⟩
  result := nofun
  clear := fun _ => ⟨rfl, rfl⟩

section
variable {c : CoreState} (hc : CoreInv c)
include hc

/-- R115: recording one of the three outcomes keeps the invariant. -/
theorem coreInv_recordOutcome {code : BitVec 4} (hcode : code = errOk ∨ code = errIllegalCmd ∨ code = errNoKey) :
    CoreInv (c.recordOutcome code) := { hc with err := hcode }

/-- R910 to R912: a cipher command puts a result only under a schedule, which it leaves. -/
theorem coreInv_cipherEffect (d : Direction) : CoreInv (cipherEffect d c) := by
  cases hrk : c.rk with
  | none =>
    rw [cipherEffect_noKey d c hrk]
    exact coreInv_recordOutcome hc (.inr (.inr rfl))
  | some rk =>
    rw [cipherEffect_key d c rk hrk]
    have hput : CoreInv (c.putResult (blockTransform c.blockOperand rk d)) :=
      { hc with result := fun _ => by rw [CoreState.keyValid, putResult_rk, hrk, Option.isSome_some], clear := nofun }
    exact coreInv_recordOutcome hput (.inl rfl)

/-- R915: every word written to CMD keeps the invariant. -/
theorem coreInv_cmdStep (w : Word) : CoreInv (cmdStep c w) := by
  obtain ⟨-, h⟩ | ⟨-, h⟩ | ⟨-, h⟩ | ⟨-, -, -, h⟩ := cmdStep_cases c w
  · rw [h]
    exact coreInv_loadKeyEffect c
  · rw [h]
    exact coreInv_cipherEffect hc .enc
  · rw [h]
    exact coreInv_cipherEffect hc .dec
  · rw [h]
    exact coreInv_recordOutcome hc (.inr (.inl rfl))

/-- R1000: a write to any register keeps the invariant; the operand registers are no part of it. -/
theorem coreInv_writeRegister (r : Reg) (v : Word) : CoreInv (writeRegister r v c) := by
  cases r with
  | cmd => exact coreInv_cmdStep hc v
  | keyHi | keyLo | dinHi | dinLo => exact { hc with }
  | status | doutHi | doutLo => exact hc

end

/-- Every step that goes on keeps the invariant. -/
theorem machineInv_of_step {s t : State} (h : step s = .next t) (hs : MachineInv s) : MachineInv t := by
  rw [MachineInv] at hs ⊢
  obtain hr | ⟨r, v, hw⟩ | hcore := step_core_cases h
  · rw [step_core_of_nextResets h hr]
    exact coreInv_reset
  · rw [step_core_of_nextWrites h hw]
    exact coreInv_writeRegister hs r v
  · rwa [hcore]

/-- Every step that goes on keeps the ledger true. -/
theorem describes_of_step {s t : State} {g : Ledger} (h : step s = .next t) (hd : g.describes s.core) :
    (g.serveNext s).describes t.core := by
  cases hp : s.pending with
  | nil =>
    rw [step_idle s hp] at h
    cases h
    rwa [Ledger.serveNext, hp]
  | cons e rest =>
    rw [(step_serves h hp).1, Ledger.serveNext, hp]
    exact describes_serve hd e

/-- Settles O33: its two parts are kept independently of each other. -/
theorem stepKeepsTheCoreInvariant : Obligations.StepKeepsTheCoreInvariant :=
  fun _ _ h => ⟨machineInv_of_step h, fun _ hd => describes_of_step h hd⟩

/-- Settles O34. -/
theorem resetMeetsTheCoreInvariant : Obligations.ResetMeetsTheCoreInvariant := ⟨coreInv_reset, describes_reset⟩

end Sys2Proof.Proofs
end

section
/-! PROOF. The machine as hostStep after hostStep (20_memory.md R206, R208, R220, 46_host_interface.md R1003): a step that serves
an access does what hostStep says, or gives the platform's response, and a run of steps does what hostSteps says. -/

namespace Sys2Proof.Proofs

open Sys2Proof.Machine Sys2Proof.Safety Sys2Proof.Laws

/-- R1003: serving an access that hostStep admits gives the core and the answer hostStep gives. -/
theorem serveAccess_of_hostStep {s : State} {t : Transaction} {c : CoreState} {r : Option Word}
    (h : hostStep s.core t = .ok (c, r)) :
    serveAccess t s = .next ⟨c, s.pending, (r.map Answer.word).toList ++ s.answers⟩ := by
  cases hr : t.target with
  | none => simp [hostStep_of_no_target s.core hr] at h
  | some reg =>
    cases hd : t.dir with
    | read =>
      rw [hostStep_read s.core hr hd] at h
      cases h
      exact serveAccess_read t s reg hr hd
    | write =>
      rw [hostStep_write s.core hr hd] at h
      cases h
      exact serveAccess_write t s reg hr hd

/-- Settles O19: the step serves the access from the state with that event taken off. -/
theorem stepServesOneHostStep : Obligations.StepServesOneHostStep := by
  intro s t rest c r hp h
  rw [step_event s _ rest hp]
  exact serveAccess_of_hostStep (s := s.withPending rest) h

/-- Settles O21, by the three responses a platform can give. -/
theorem refusedAccessNeverTouchesTheCore : Obligations.RefusedAccessNeverTouchesTheCore := by
  intro s t rest hp h
  rw [step_event s _ rest hp, serveEvent, serveAccess_refused t _ (target_of_not_admitted h)]
  cases Config.busErrorResponse with
  | errorResponse => exact .inl rfl
  | abort => exact .inr (.inl rfl)
  | hang => exact .inr (.inr rfl)

/-- Of any machine: a run whose first step goes on is the rest of the run from there. -/
theorem run_succ_of_step {M : Host.Core} {s u : M.State} (h : M.step s = .next u) (n : Nat) :
    M.run (n + 1) s = M.run n u := by
  rw [Host.Core.run, h]

/-- R1003: the answer hostStep gives goes to the front of those the later accesses bring. -/
theorem hostSteps_cons {c c' : CoreState} {t : Transaction} {r : Option Word} (h : hostStep c t = .ok (c', r))
    (ts : List Transaction) (as : List Answer) :
    hostSteps (t :: ts) (c, as) = hostSteps ts (c', (r.map Answer.word).toList ++ as) := by
  rw [hostSteps, h]
  cases r <;> rfl

/-- R1002: no access of a list that is served to its end is refused. -/
theorem hostStep_ok_of_hostSteps_cons {c : CoreState} {t : Transaction} {ts : List Transaction} {as : List Answer}
    {out : CoreState × List Answer} (h : hostSteps (t :: ts) (c, as) = .ok out) : ∃ c' r, hostStep c t = .ok (c', r) := by
  cases hs : hostStep c t with
  | error e => simp [hostSteps, hs] at h
  | ok cr => exact ⟨_, _, rfl⟩

/-- Settles O24, by induction on the accesses, one step of the machine to one hostStep. -/
theorem machineServesAccessesInOrder : Obligations.MachineServesAccessesInOrder := by
  intro ts
  induction ts with
  | nil =>
    rintro s rest c as rfl h
    cases h
    rfl
  | cons t ts ih =>
    intro s rest c as hp h
    obtain ⟨c', r, hs⟩ := hostStep_ok_of_hostSteps_cons h
    rw [hostSteps_cons hs] at h
    rw [List.length_cons, run_succ_of_step (M := Sys2Proof.core) (stepServesOneHostStep s t _ c' r hp hs)]
    exact ih _ rest c as rfl h

/-- Settles O22: the second read meets the core that the first one left, which is the core it met itself. -/
theorem readsAreIdempotent : Obligations.ReadsAreIdempotent := by
  intro s a r rest hp hd hr
  refine ⟨readRegister r s.core, machineServesAccessesInOrder [a, a] s rest _ _ hp ?_⟩
  have hread := hostStep_read s.core hr hd
  rw [hostSteps_cons hread, hostSteps_cons hread]
  rfl

/-- R307: the accesses of a list that begins with WR. -/
@[simp] theorem hostSteps_writeAccess (r : Reg) (v : Word) (ts : List Transaction) (c : CoreState) (as : List Answer) :
    hostSteps (writeAccess r v :: ts) (c, as) = hostSteps ts (writeRegister r v c, as) :=
  hostSteps_cons (hostStep_writeAccess c r v) ts as

/-- R307: the accesses of a list that begins with RD. -/
@[simp] theorem hostSteps_readAccess (r : Reg) (ts : List Transaction) (c : CoreState) (as : List Answer) :
    hostSteps (readAccess r :: ts) (c, as) = hostSteps ts (c, .word (readRegister r c) :: as) :=
  hostSteps_cons (hostStep_read_offset c r 0#32) ts as

/-- R307: the accesses of a list that begins with CMD. -/
@[simp] theorem hostSteps_commandAccess (i : Instr) (ts : List Transaction) (c : CoreState) (as : List Answer) :
    hostSteps (commandAccess i :: ts) (c, as) = hostSteps ts (writeRegister .cmd (encode i) c, as) :=
  hostSteps_writeAccess .cmd (encode i) ts c as

@[simp] theorem hostSteps_nil (acc : CoreState × List Answer) : hostSteps [] acc = .ok acc := rfl

end Sys2Proof.Proofs
end

section
/-! PROOF. The register window (20_memory.md R201, 10_state.md R101): its addresses at every BASE, and the eight offsets as the
aligned ones up to 0x1C. -/

namespace Sys2Proof.Proofs

open Sys2Proof.Machine Sys2Proof.Laws

/-- R201: the window's addresses are BASE plus an offset below 0x20. -/
theorem windowOffset_eq_some_iff (base addr off : Nat) :
    windowOffset base addr = some off ↔ addr = base + off ∧ off < 0x20 := by
  unfold windowOffset
  split
  · rw [Option.some_inj]
    omega
  · simp only [reduceCtorEq, false_iff]
    omega

/-- R101: the registers' offsets are the multiples of 4 up to 0x1C. -/
theorem exists_offset_eq_iff (off : Nat) : (∃ r : Reg, r.offset = off) ↔ off % 4 = 0 ∧ off ≤ 0x1C := by
  constructor
  · rintro ⟨r, rfl⟩
    cases r <;> decide
  · rintro ⟨h4, hmax⟩
    obtain ⟨r, hr⟩ := target_of_admitted ⟨.read, off, 32, 0#32⟩ ((admitted_iff _).mpr ⟨rfl, h4, hmax⟩)
    exact ⟨r, offset_of_target hr⟩

/-- R201: the transaction of an access at an address of the window. -/
theorem addressedAccess_eq_some_iff (base : Nat) (dir : AccessDir) (addr size : Nat) (data : Word) (t : Transaction) :
    addressedAccess base dir addr size data = some t ↔
      ∃ off, (addr = base + off ∧ off < 0x20) ∧ (⟨dir, off, size, data⟩ : Transaction) = t := by
  simp only [addressedAccess, Option.map_eq_some_iff, windowOffset_eq_some_iff]

/-- Settles O23, from the window's addresses and the registers' offsets. -/
theorem windowAtEveryBase : Obligations.WindowAtEveryBase := by
  refine fun base => ⟨fun off h => (windowOffset_eq_some_iff _ _ _).mpr ⟨rfl, h⟩, fun addr h => ?_,
    fun dir addr size data t h => ?_⟩
  · rw [windowOffset, if_neg (by omega)]
  · obtain ⟨off, ⟨rfl, -⟩, rfl⟩ := (addressedAccess_eq_some_iff _ _ _ _ _ _).mp h
    simp only [admitted_iff, Nat.add_left_cancel_iff, eq_comm (a := off), exists_offset_eq_iff]

end Sys2Proof.Proofs
end

section
/-! PROOF. The operand registers and the result over one step (10_state.md R102 to R105, R108, R109): which CMD words touch
them, and which register writes. -/

namespace Sys2Proof.Proofs

open Sys2Proof.Machine Sys2Proof.Safety Sys2Proof.Laws

@[simp] theorem loadKeyEffect_keyHi (c : CoreState) : (loadKeyEffect c).keyHi = 0#32 := rfl
@[simp] theorem loadKeyEffect_keyLo (c : CoreState) : (loadKeyEffect c).keyLo = 0#32 := rfl
@[simp] theorem loadKeyEffect_dinHi (c : CoreState) : (loadKeyEffect c).dinHi = c.dinHi := rfl
@[simp] theorem loadKeyEffect_dinLo (c : CoreState) : (loadKeyEffect c).dinLo = c.dinLo := rfl

/-- R104: no command changes DIN. -/
theorem cmdStep_din (c : CoreState) (w : Word) : (cmdStep c w).dinHi = c.dinHi ∧ (cmdStep c w).dinLo = c.dinLo := by
  obtain ⟨-, h⟩ | ⟨-, h⟩ | ⟨-, h⟩ | ⟨-, -, -, h⟩ := cmdStep_cases c w
  · rw [h]
    exact ⟨rfl, rfl⟩
  · rw [h]
    exact (cipherEffect_frame .enc c).2.2.2
  · rw [h]
    exact (cipherEffect_frame .dec c).2.2.2
  · rw [h]
    exact ⟨rfl, rfl⟩

/-- R710: LOAD_KEY clears the key latches and no other word changes them. -/
theorem cmdStep_keyLatches (c : CoreState) (w : Word) :
    (w = 0x00000001#32 ∧ (cmdStep c w).keyHi = 0#32 ∧ (cmdStep c w).keyLo = 0#32) ∨
      ((cmdStep c w).keyHi = c.keyHi ∧ (cmdStep c w).keyLo = c.keyLo) := by
  have hcipher : ∀ d, (cipherEffect d c).keyHi = c.keyHi ∧ (cipherEffect d c).keyLo = c.keyLo := fun d => by
    obtain ⟨-, hhi, hlo, -⟩ := cipherEffect_frame d c
    exact ⟨hhi, hlo⟩
  obtain ⟨hw, h⟩ | ⟨-, h⟩ | ⟨-, h⟩ | ⟨-, -, -, h⟩ := cmdStep_cases c w
  · rw [h]
    exact .inl ⟨hw, rfl, rfl⟩
  · rw [h]
    exact .inr (hcipher .enc)
  · rw [h]
    exact .inr (hcipher .dec)
  · rw [h]
    exact .inr ⟨rfl, rfl⟩

/-- R113: KEY_VALID is 0 exactly while RK holds no schedule. -/
theorem keyValid_eq_false_iff {c : CoreState} : c.keyValid = false ↔ c.rk = none := by
  rw [CoreState.keyValid, Option.isSome_eq_false_iff, Option.isNone_iff_eq_none]

/-- R912: a cipher command without a key leaves DOUT. -/
theorem cipherEffect_dout_of_noKey (d : Direction) (c : CoreState) (hk : c.keyValid = false) :
    (cipherEffect d c).doutHi = c.doutHi ∧ (cipherEffect d c).doutLo = c.doutLo := by
  rw [cipherEffect_noKey d c (keyValid_eq_false_iff.mp hk)]
  exact ⟨rfl, rfl⟩

/-- R1214: no word but LOAD_KEY's and, with a key, a cipher command's changes DOUT. -/
theorem cmdStep_dout (c : CoreState) (w : Word) (h1 : w ≠ 0x00000001#32)
    (hk : c.keyValid = true → w ≠ 0x00000002#32 ∧ w ≠ 0x00000003#32) :
    (cmdStep c w).doutHi = c.doutHi ∧ (cmdStep c w).doutLo = c.doutLo := by
  obtain ⟨hw, -⟩ | ⟨hw, h⟩ | ⟨hw, h⟩ | ⟨-, -, -, h⟩ := cmdStep_cases c w
  · exact absurd hw h1
  · rw [h]
    exact cipherEffect_dout_of_noKey .enc c (Bool.eq_false_iff.mpr fun hv => (hk hv).1 hw)
  · rw [h]
    exact cipherEffect_dout_of_noKey .dec c (Bool.eq_false_iff.mpr fun hv => (hk hv).2 hw)
  · rw [h]
    exact ⟨rfl, rfl⟩

/-- Settles O29: the contrapositive, by whether the step served a CMD write. -/
theorem resultLivesUntilTheNextCommand : Obligations.ResultLivesUntilTheNextCommand := by
  intro s t h hne
  by_contra hno
  obtain ⟨hr, hl, hcipher⟩ := by simpa only [not_or, not_and] using hno
  have hsame : t.core.doutHi = s.core.doutHi ∧ t.core.doutLo = s.core.doutLo := by
    by_cases hc : ∃ w, nextWrites s .cmd w
    · obtain ⟨w, hw⟩ := hc
      rw [step_core_of_command h hw]
      refine cmdStep_dout s.core w (fun h0 => hl (h0 ▸ hw)) fun hk => ⟨fun h0 => ?_, fun h0 => ?_⟩
      · exact (hcipher hk).1 (h0 ▸ hw)
      · exact (hcipher hk).2 (h0 ▸ hw)
    · push Not at hc
      obtain ⟨-, -, -, hdout⟩ := step_frame h hr hc
      exact hdout
  exact hne.elim (fun h0 => h0 hsame.1) (fun h0 => h0 hsame.2)

/-- Settles O30, by the register the step wrote. -/
theorem operandRegistersBelongToTheHost : Obligations.OperandRegistersBelongToTheHost := by
  intro s t h hr
  obtain h0 | ⟨r, v, hw⟩ | h0 := step_core_cases h
  · exact absurd h0 hr
  · rw [step_core_of_nextWrites h hw]
    cases r with
    | keyHi => exact ⟨fun _ => .inl hw, absurd rfl, absurd rfl, absurd rfl⟩
    | keyLo => exact ⟨absurd rfl, fun _ => .inl hw, absurd rfl, absurd rfl⟩
    | dinHi => exact ⟨absurd rfl, absurd rfl, fun _ => hw, absurd rfl⟩
    | dinLo => exact ⟨absurd rfl, absurd rfl, absurd rfl, fun _ => hw⟩
    | status | doutHi | doutLo => exact ⟨absurd rfl, absurd rfl, absurd rfl, absurd rfl⟩
    | cmd =>
      obtain ⟨hdinHi, hdinLo⟩ := cmdStep_din s.core v
      obtain ⟨rfl, hhi, hlo⟩ | ⟨hhi, hlo⟩ := cmdStep_keyLatches s.core v
      · exact ⟨fun _ => .inr ⟨hw, hhi⟩, fun _ => .inr ⟨hw, hlo⟩, absurd hdinHi, absurd hdinLo⟩
      · exact ⟨absurd hhi, absurd hlo, absurd hdinHi, absurd hdinLo⟩
  · rw [h0]
    exact ⟨absurd rfl, absurd rfl, absurd rfl, absurd rfl⟩

end Sys2Proof.Proofs
end

section
/-! PROOF. What the host cannot learn (10_state.md R102, R103, R110, 46_host_interface.md R1001): two cores with one host view
keep one view under every write but a cipher command that runs, and serve every read with one word. -/

namespace Sys2Proof.Proofs

open Sys2Proof.Machine Sys2Proof.Safety Sys2Proof.Laws

/-- R107: the host view is DIN and DOUT and the three fields that STATUS is made of. -/
theorem hostView_eq_iff (c c' : CoreState) :
    hostView c = hostView c' ↔
      (c.dinHi = c'.dinHi ∧ c.dinLo = c'.dinLo ∧ c.doutHi = c'.doutHi ∧ c.doutLo = c'.doutLo) ∧
        c.keyValid = c'.keyValid ∧ c.doutValid = c'.doutValid ∧ c.err = c'.err := by
  have hstatus : c.statusWord = c'.statusWord ↔
      c.keyValid = c'.keyValid ∧ c.doutValid = c'.doutValid ∧ c.err = c'.err := by
    constructor
    · intro h
      exact ⟨by rw [← statusWord_bit0, h, statusWord_bit0], by rw [← statusWord_bit1, h, statusWord_bit1],
        by rw [← statusWord_bits7_4, h, statusWord_bits7_4]⟩
    · rintro ⟨hk, hv, he⟩
      rw [CoreState.statusWord, hk, hv, he, CoreState.statusWord]
  simp only [hostView, Prod.mk.injEq, hstatus]
  tauto

section
variable {c c' : CoreState} (hview : hostView c = hostView c')
include hview

/-- R1001: reads return the same word. -/
theorem readRegister_of_hostView_eq (r : Reg) : readRegister r c = readRegister r c' := by
  obtain ⟨hdinHi, hdinLo, hstatus, hdoutHi, hdoutLo⟩ := by simpa only [hostView, Prod.mk.injEq] using hview
  cases r with
  | keyHi | keyLo | cmd => rfl
  | dinHi => exact hdinHi
  | dinLo => exact hdinLo
  | status => exact hstatus
  | doutHi => exact hdoutHi
  | doutLo => exact hdoutLo

/-- R115: an outcome recorded in both cores shows the same. -/
theorem hostView_recordOutcome_eq (code : BitVec 4) :
    hostView (c.recordOutcome code) = hostView (c'.recordOutcome code) := by
  obtain ⟨hdata, hk, hv, -⟩ := (hostView_eq_iff c c').mp hview
  exact (hostView_eq_iff _ _).mpr ⟨hdata, hk, hv, rfl⟩

/-- R710: LOAD_KEY shows only that a key was loaded. -/
theorem hostView_loadKeyEffect_eq : hostView (loadKeyEffect c) = hostView (loadKeyEffect c') := by
  obtain ⟨⟨hdinHi, hdinLo, -⟩, -⟩ := (hostView_eq_iff c c').mp hview
  rw [hostView_eq_iff]
  simp [hdinHi, hdinLo]

/-- R912: without a key a cipher command shows only NO_KEY. -/
theorem hostView_cipherEffect_eq (d : Direction) (hk : c.keyValid = false) :
    hostView (cipherEffect d c) = hostView (cipherEffect d c') := by
  obtain ⟨-, hkk, -⟩ := (hostView_eq_iff c c').mp hview
  rw [cipherEffect_noKey d c (keyValid_eq_false_iff.mp hk),
    cipherEffect_noKey d c' (keyValid_eq_false_iff.mp (hkk ▸ hk))]
  exact hostView_recordOutcome_eq hview errNoKey

/-- R915: so does every word written to CMD but that of a cipher command that runs. -/
theorem hostView_cmdStep_eq (w : Word) (hk : c.keyValid = true → w ≠ 0x00000002#32 ∧ w ≠ 0x00000003#32) :
    hostView (cmdStep c w) = hostView (cmdStep c' w) := by
  obtain ⟨rfl, h⟩ | ⟨rfl, h⟩ | ⟨rfl, h⟩ | ⟨h1, h2, h3, h⟩ := cmdStep_cases c w
  · rw [h, cmdStep_loadKey]
    exact hostView_loadKeyEffect_eq hview
  · rw [h, cmdStep_encrypt]
    exact hostView_cipherEffect_eq hview .enc (Bool.eq_false_iff.mpr fun hv => (hk hv).1 rfl)
  · rw [h, cmdStep_decrypt]
    exact hostView_cipherEffect_eq hview .dec (Bool.eq_false_iff.mpr fun hv => (hk hv).2 rfl)
  · rw [h, cmdStep_illegal c' w h1 h2 h3]
    exact hostView_recordOutcome_eq hview errIllegalCmd

/-- R1000: and so does every write to a register. -/
theorem hostView_writeRegister_eq (r : Reg) (v : Word)
    (hk : r = .cmd → c.keyValid = true → v ≠ 0x00000002#32 ∧ v ≠ 0x00000003#32) :
    hostView (writeRegister r v c) = hostView (writeRegister r v c') := by
  obtain ⟨⟨hdinHi, hdinLo, hdout⟩, hflags⟩ := (hostView_eq_iff c c').mp hview
  cases r with
  | cmd => exact hostView_cmdStep_eq hview v (hk rfl)
  | dinHi => exact (hostView_eq_iff _ _).mpr ⟨⟨rfl, hdinLo, hdout⟩, hflags⟩
  | dinLo => exact (hostView_eq_iff _ _).mpr ⟨⟨hdinHi, rfl, hdout⟩, hflags⟩
  | keyHi | keyLo | status | doutHi | doutLo => exact hview

end

/-- R206: a refused access shows the same in two machines the host cannot tell apart, whichever response the platform gives. -/
theorem refuseAccess_of_hostCannotTell {s t : State} (h : hostCannotTell s t) (p : BusErrorResponse) (off : Nat) :
    (∃ s' t', refuseAccess p off s = .next s' ∧ refuseAccess p off t = .next t' ∧ hostCannotTell s' t') ∨
      (∃ r, refuseAccess p off s = .fault r ∧ refuseAccess p off t = .fault r) ∨
      (∃ r, refuseAccess p off s = .refused r ∧ refuseAccess p off t = .refused r) := by
  obtain ⟨hview, hpending, hanswers⟩ := h
  cases p with
  | errorResponse => exact .inl ⟨_, _, rfl, rfl, hview, hpending, congrArg (_ :: ·) hanswers⟩
  | hang => exact .inr (.inl ⟨_, rfl, rfl⟩)
  | abort => exact .inr (.inr ⟨_, rfl, rfl⟩)

/-- Settles O35, by the event both machines serve. -/
theorem keyMaterialStaysHidden : Obligations.KeyMaterialStaysHidden := by
  intro s t hst hk
  obtain ⟨hview, hpending, hanswers⟩ := hst
  cases hp : s.pending with
  | nil => exact .inl ⟨s, t, step_idle s hp, step_idle t (hpending ▸ hp), hview, hpending, hanswers⟩
  | cons e rest =>
    have hp' : t.pending = e :: rest := hpending ▸ hp
    have hrest : hostCannotTell (s.withPending rest) (t.withPending rest) := ⟨hview, rfl, hanswers⟩
    rw [step_event s e rest hp, step_event t e rest hp']
    cases e with
    | reset => exact .inl ⟨_, _, rfl, rfl, rfl, rfl, hanswers⟩
    | access a =>
      rw [serveEvent, serveEvent]
      cases hr : a.target with
      | none =>
        rw [serveAccess_refused a _ hr, serveAccess_refused a _ hr]
        exact refuseAccess_of_hostCannotTell hrest _ _
      | some r =>
        cases hd : a.dir with
        | read =>
          refine .inl ⟨_, _, serveAccess_read a _ r hr hd, serveAccess_read a _ r hr hd, hview, rfl, ?_⟩
          rw [withAnswer_answers, withAnswer_answers, withPending_core, withPending_core,
            readRegister_of_hostView_eq hview r, withPending_answers, withPending_answers, hanswers]
        | write =>
          refine .inl ⟨_, _, serveAccess_write a _ r hr hd, serveAccess_write a _ r hr hd, ?_, rfl, hanswers⟩
          have hnext : nextWrites s r a.data := ⟨_, by rw [hp]; rfl, a, rfl, hd, hr, rfl⟩
          refine hostView_writeRegister_eq hview r a.data fun hcmd hv => ⟨fun h0 => ?_, fun h0 => ?_⟩
          · exact (hk hv).1 (h0 ▸ hcmd ▸ hnext)
          · exact (hk hv).2 (h0 ▸ hcmd ▸ hnext)

end Sys2Proof.Proofs
end

section
/-! PROOF. The complementation property (95_test_vectors.md V23): a table permutation and a rotation commute with the complement,
and in f the two complements cancel before the S-boxes, so a round on complemented pairs and keys gives the complemented pair. -/

namespace Sys2Proof.Proofs

open Sys2Proof.Machine Sys2Proof.Laws

/-- R400: a position within the width reads the complemented bit. -/
theorem fips_not {m : Nat} (x : BitVec m) (p : Nat) (h1 : 1 ≤ p) (hm : p ≤ m) : fips (~~~x) p = !fips x p := by
  have hlt : m - p < m := by omega
  rw [fips, fips, BitVec.getLsbD_not, decide_eq_true hlt, Bool.true_and]

/-- A slice within the width commutes with the complement. -/
theorem extractLsb'_not {m start len : Nat} (x : BitVec m) (h : start + len ≤ m) :
    (~~~x).extractLsb' start len = ~~~(x.extractLsb' start len) := by
  refine BitVec.eq_of_getLsbD_eq fun i hi => ?_
  have hlt : start + i < m := by omega
  rw [BitVec.getLsbD_not, BitVec.getLsbD_extractLsb', BitVec.getLsbD_extractLsb', BitVec.getLsbD_not,
    decide_eq_true hi, decide_eq_true hlt]
  rfl

/-- R500: a table of positions within the input's width commutes with the complement. -/
theorem perm_not {m n : Nat} (t : List Nat) (x : BitVec m) (hlen : t.length = n) (ht : ∀ p ∈ t, 1 ≤ p ∧ p ≤ m) :
    (perm t (~~~x) : BitVec n) = ~~~(perm t x) := by
  refine BitVec.eq_of_getLsbD_eq fun k hk => ?_
  have hk' : k < t.reverse.length := by rwa [List.length_reverse, hlen]
  obtain ⟨h1, hm⟩ := ht _ (List.mem_reverse.mp (List.getElem_mem hk'))
  rw [BitVec.getLsbD_not, getLsbD_perm t _ hlen, getLsbD_perm t _ hlen,
    List.getD_eq_getElem _ _ (by rwa [List.length_map]), List.getD_eq_getElem _ _ (by rwa [List.length_map]),
    List.getElem_map, List.getElem_map, fips_not x _ h1 hm, decide_eq_true hk]
  rfl

theorem initialPermutation_not (b : Block) : initialPermutation (~~~b) = ~~~(initialPermutation b) :=
  perm_not tableIP b rfl (by decide)

theorem inverseInitialPermutation_not (b : Block) :
    inverseInitialPermutation (~~~b) = ~~~(inverseInitialPermutation b) :=
  perm_not tableRIP b rfl (by decide)

theorem expansion_not (r : Word) : expansion (~~~r) = ~~~(expansion r) := perm_not tableE r rfl (by decide)

theorem permutedChoice1_not (k : Block) : permutedChoice1 (~~~k) = ~~~(permutedChoice1 k) :=
  perm_not tablePC1 k rfl (by decide)

theorem permutedChoice2_not (y : BitVec 56) : permutedChoice2 (~~~y) = ~~~(permutedChoice2 y) :=
  perm_not tablePC2 y rfl (by decide)

/-- R701: a rotation within the width commutes with the complement. -/
theorem rotl28_not (x : KeyHalf) (s : Nat) (hs : s ≤ 28) : rotl28 (~~~x) s = ~~~(rotl28 x s) := by
  refine BitVec.eq_of_getLsbD_eq fun i hi => ?_
  have hsrc : (if i < s then 28 - s + i else i - s) < 28 := by split <;> omega
  rw [getLsbD_rotl28 _ s i hs hi, BitVec.getLsbD_not, BitVec.getLsbD_not, getLsbD_rotl28 x s i hs hi,
    decide_eq_true hsrc, decide_eq_true hi]

/-- R701: each round's amount is within the width. -/
theorem shiftAmount_le (n : Nat) : shiftAmount n ≤ 28 := by
  rw [shiftAmount]
  split <;> omega

/-- R702: the complemented key's halves are the complements. -/
theorem keyHalves_not (k : Block) (n : Nat) : keyHalves (~~~k) n = (~~~(keyHalves k n).1, ~~~(keyHalves k n).2) := by
  induction n with
  | zero =>
    simp only [keyHalves, permutedChoice1_not, hi28, lo28]
    rw [extractLsb'_not _ (by decide), extractLsb'_not _ (by decide)]
  | succ n ih => rw [keyHalves, ih, keyHalves, rotl28_not _ _ (shiftAmount_le _), rotl28_not _ _ (shiftAmount_le _)]

/-- R703: the complemented key's round keys are the complements. -/
theorem roundKeyOfRound_not (k : Block) (n : Nat) : roundKeyOfRound (~~~k) n = ~~~(roundKeyOfRound k n) := by
  rw [roundKeyOfRound, roundKeyOfRound, keyHalves_not, join56_eq_append, join56_eq_append, ← permutedChoice2_not,
    BitVec.not_append]

theorem keySchedule_not (k : Block) : keySchedule (~~~k) = (keySchedule k).map (~~~·) := by
  refine Vector.ext fun i hi => ?_
  rw [getElem_keySchedule, roundKeyOfRound_not, Vector.getElem_map, getElem_keySchedule]

/-- R901: either direction takes the complemented schedule's keys in its own order. -/
theorem keyOrder_keySchedule_not (d : Direction) (k : Block) :
    keyOrder d (keySchedule (~~~k)) = (keyOrder d (keySchedule k)).map (~~~·) := by
  cases d with
  | enc => rw [keySchedule_not, keyOrder, keyOrder, Vector.toList_map]
  | dec => rw [keySchedule_not, keyOrder, keyOrder, Vector.toList_map, List.map_reverse]

/-- R800: complementing both the half and the round key leaves f, since the key is mixed in by xor. -/
theorem roundFunction_not (r : Word) (k : RoundKey) : roundFunction (~~~r) (~~~k) = roundFunction r k := by
  have hmix : ~~~(expansion r) ^^^ ~~~k = expansion r ^^^ k := by
    rw [← BitVec.not_xor_left, ← BitVec.not_xor_right, BitVec.not_not]
  rw [roundFunction, roundFunction, expansion_not, hmix]

/-- The complement of both halves of a working pair. -/
def complementPair (lr : Word × Word) : Word × Word := (~~~lr.1, ~~~lr.2)

/-- R802: a round commutes with the complement. -/
theorem feistelRound_not (lr : Word × Word) (k : RoundKey) :
    feistelRound (complementPair lr) (~~~k) = complementPair (feistelRound lr k) := by
  simp only [feistelRound, complementPair, roundFunction_not, BitVec.not_xor_left]

/-- R900: and so do the rounds of a list of keys. -/
theorem runRounds_not (keys : List RoundKey) (lr : Word × Word) :
    runRounds (complementPair lr) (keys.map (~~~·)) = complementPair (runRounds lr keys) := by
  induction keys generalizing lr with
  | nil => rfl
  | cons k keys ih => rw [List.map_cons, runRounds_cons, feistelRound_not, ih, runRounds_cons]

/-- R406: the halves of the complemented block. -/
theorem initialHalves_not (b : Block) : initialHalves (~~~b) = complementPair (initialHalves b) := by
  rw [initialHalves, initialPermutation_not, hi32, lo32, extractLsb'_not _ (by decide), extractLsb'_not _ (by decide)]
  rfl

/-- R902: the pre-output of the complemented pair. -/
theorem preOutput_not (lr : Word × Word) : preOutput (complementPair lr) = ~~~(preOutput lr) := by
  rw [preOutput_eq_append, preOutput_eq_append, complementPair, BitVec.not_append]

/-- Settles O51: each stage of the transform commutes with the complement. -/
theorem complementingKeyAndBlockComplementsTheOutput : Obligations.ComplementingKeyAndBlockComplementsTheOutput := by
  intro k b d
  rw [blockTransform, initialHalves_not, keyOrder_keySchedule_not, runRounds_not, preOutput_not,
    inverseInitialPermutation_not, blockTransform]

end Sys2Proof.Proofs
end

section
/-! PROOF. The weak keys (95_test_vectors.md V15, V24) and the key 0 of a repeated LOAD_KEY (70_reset_and_hazards.md R1213): a key
half with equal bits is its own rotation, so the sixteen round keys are equal and either direction takes them in one order. -/

namespace Sys2Proof.Proofs

open Sys2Proof.Machine Sys2Proof.Laws

/-- R701: a half of equal bits is its own rotation. -/
theorem rotl28_of_constant {x : KeyHalf} (hx : x = 0x0000000#28 ∨ x = 0xFFFFFFF#28) (s : Nat) (hs : s ≤ 28) :
    rotl28 x s = x := by
  refine BitVec.eq_of_getLsbD_eq fun i hi => ?_
  have hsrc : (if i < s then 28 - s + i else i - s) < 28 := by split <;> omega
  rw [getLsbD_rotl28 x s i hs hi]
  obtain rfl | rfl := hx
  · rw [BitVec.getLsbD_zero, BitVec.getLsbD_zero]
  · have hones : 0xFFFFFFF#28 = BitVec.allOnes 28 := rfl
    rw [hones, BitVec.getLsbD_allOnes, BitVec.getLsbD_allOnes, decide_eq_true hsrc, decide_eq_true hi]

section
variable {k : Block} (hc : hi28 (permutedChoice1 k) = 0x0000000#28 ∨ hi28 (permutedChoice1 k) = 0xFFFFFFF#28)
  (hd : lo28 (permutedChoice1 k) = 0x0000000#28 ∨ lo28 (permutedChoice1 k) = 0xFFFFFFF#28)
include hc hd

/-- R703: under a weak key every round key is PC-2 of PC-1's output. -/
theorem keySchedule_of_weak : keySchedule k = Vector.replicate 16 (permutedChoice2 (permutedChoice1 k)) := by
  refine Vector.ext fun i hi => ?_
  have hshift := cumulativeShift_le (i + 1) (by omega)
  have hjoin : hi28 (permutedChoice1 k) ++ lo28 (permutedChoice1 k) = permutedChoice1 k :=
    (BitVec.extractLsb'_append_extractLsb'_eq_extractLsb' rfl).trans BitVec.extractLsb'_eq_self
  rw [getElem_keySchedule, roundKeyOfRound, keyHalves_eq_rotl28 k (i + 1) (by omega), rotl28_of_constant hc _ hshift,
    rotl28_of_constant hd _ hshift, join56_eq_append, hjoin, Vector.getElem_replicate]

/-- R901: equal round keys are their own reverse order. -/
theorem keyOrder_enc_eq_dec_of_weak : keyOrder .enc (keySchedule k) = keyOrder .dec (keySchedule k) := by
  rw [keyOrder_dec, keySchedule_of_weak hc hd, keyOrder, Vector.toList_replicate, List.reverse_replicate]

end

/-- Settles O52: with one key order for both directions, encryption is decryption and undoes itself. -/
theorem weakKeysMakeEncryptionAnInvolution : Obligations.WeakKeysMakeEncryptionAnInvolution := by
  intro k hc hd
  have horder := keyOrder_enc_eq_dec_of_weak hc hd
  refine ⟨fun i hi => ?_, fun b => ⟨?_, blockTransform_blockTransform_of_reverse b horder⟩⟩
  · simp only [keySchedule_of_weak hc hd, Vector.getElem_replicate]
  · rw [blockTransform, blockTransform, horder]

/-- R1213: the schedule of the key 0. -/
theorem keySchedule_zero : keySchedule 0#64 = Vector.replicate 16 0x000000000000#48 := by
  have h1 : permutedChoice1 0#64 = 0#56 := by decide +kernel
  have h2 : permutedChoice2 0#56 = 0#48 := by decide +kernel
  rw [keySchedule_of_weak (k := 0#64) (by rw [h1]; decide) (by rw [h1]; decide), h1, h2]

/-- Settles O16: the first LOAD_KEY leaves key latches of 0 for the second. -/
theorem secondLoadKeyLoadsTheZeroKey : Obligations.SecondLoadKeyLoadsTheZeroKey := by
  intro s t u ht hu
  rw [exec_eq] at ht hu
  cases ht
  cases hu
  rw [withCore_core, withCore_core, commandEffect, commandEffect]
  refine ⟨?_, loadKeyEffect_keyValid _, loadKeyEffect_err _⟩
  have hzero : 0#32 ++ 0#32 = 0#64 := rfl
  rw [loadKeyEffect_eq_update (loadKeyEffect s.core), loadKeyEffect_keyHi, loadKeyEffect_keyLo, hzero, keySchedule_zero]

end Sys2Proof.Proofs
end

section
/-! PROOF. The CMD word and the commands (30_encoding.md R301, R302, 45_des_core_block_transform.md R910 to R912): each command has
one word, a step that serves it is exec of the command, and what exec leaves is the frame of its effect on the core. -/

namespace Sys2Proof.Proofs

open Sys2Proof.Machine Sys2Proof.Laws

/-- Settles O5: the three words decode to their commands, and no other word decodes to one. -/
theorem commandAndWordDetermineEachOther : Obligations.CommandAndWordDetermineEachOther := by
  refine ⟨fun i => ?_, fun w i hi => ?_⟩
  · cases i with
    | loadKey => exact decode_word_loadKey
    | encrypt => exact decode_word_encrypt
    | decrypt => exact decode_word_decrypt
  · obtain ⟨rfl, h⟩ | ⟨rfl, h⟩ | ⟨rfl, h⟩ | ⟨-, -, -, e, h⟩ := decode_cases w
    · cases h.symm.trans hi
      rfl
    · cases h.symm.trans hi
      rfl
    · cases h.symm.trans hi
      rfl
    · cases h.symm.trans hi

/-- Settles O7, word by word. -/
theorem sampleWordsDecode : Obligations.SampleWordsDecode :=
  ⟨decode_word_loadKey, decode_word_encrypt, decode_word_decrypt, rfl, rfl, rfl, rfl⟩

/-- R915: a word that decodes to a command has that command's effect. -/
theorem cmdStep_of_decode {w : Word} {i : Instr} (h : decode w = .ok i) (c : CoreState) :
    cmdStep c w = commandEffect i c := by
  rw [cmdStep, h]

/-- R1000: serving the CMD write of a word that decodes to a command is exec of it. -/
theorem serveAccess_of_decode {w : Word} {i : Instr} (h : decode w = .ok i) (s : State) :
    serveAccess (writeAccess .cmd w) s = exec i s := by
  have hr : (writeAccess .cmd w).target = some .cmd := target_writeAccess .cmd w
  rw [serveAccess_write _ s .cmd hr rfl, exec_eq, ← cmdStep_of_decode h]
  rfl

/-- R302: the decoder of table words drops why a word is illegal. -/
theorem decode_of_decodeTableWord {nbits w : Nat} {i : Instr} (h : decodeTableWord nbits w = some i) :
    decode (tableWord nbits w) = .ok i := by
  rw [decodeTableWord] at h
  cases hw : decode (tableWord nbits w) with
  | error e =>
    rw [hw] at h
    cases h
  | ok j =>
    rw [hw] at h
    cases h
    rfl

/-- Settles O14: both parts serve the CMD write of a word that decodes to the command. -/
theorem stepRunsTheDecodedCommand : Obligations.StepRunsTheDecodedCommand := by
  refine ⟨fun s w i rest hp h => ?_, fun s nbits w i h => ?_⟩
  · rw [step_event s _ rest hp]
    exact serveAccess_of_decode h (s.withPending rest)
  · rw [step_event (s.withFetchWord nbits w) _ s.pending rfl]
    exact serveAccess_of_decode (decode_of_decodeTableWord h) s

/-- R910, R911: the two cipher commands are one command for each direction. -/
theorem exists_eq_cipherCommand {i : Instr} (h : i = .encrypt ∨ i = .decrypt) : ∃ d, i = cipherCommand d := by
  obtain rfl | rfl := h
  · exact ⟨.enc, rfl⟩
  · exact ⟨.dec, rfl⟩

/-- R910, R911: a cipher command has the effect of its direction. -/
theorem commandEffect_cipherCommand (d : Direction) (c : CoreState) :
    commandEffect (cipherCommand d) c = cipherEffect d c := by
  cases d with
  | enc => rfl
  | dec => rfl

theorem exec_cipherCommand (d : Direction) (s : State) :
    exec (cipherCommand d) s = .next (s.withCore (cipherEffect d s.core)) := by
  rw [exec_eq, commandEffect_cipherCommand]

/-- R104: no command changes DIN. -/
theorem commandEffect_din (i : Instr) (c : CoreState) :
    (commandEffect i c).dinHi = c.dinHi ∧ (commandEffect i c).dinLo = c.dinLo := by
  have h := cmdStep_din c (encode i)
  rwa [cmdStep_of_decode (commandAndWordDetermineEachOther.1 i)] at h

/-- Settles O13: DIN for every command, and the frame of a cipher command with a key and without. -/
theorem commandFrames : Obligations.CommandFrames := by
  intro i s t h
  obtain ⟨hdinHi, hdinLo⟩ := commandEffect_din i s.core
  rw [exec_eq] at h
  cases h
  refine ⟨rfl, rfl, hdinHi, hdinLo, fun hi => ?_⟩
  obtain ⟨d, rfl⟩ := exists_eq_cipherCommand hi
  obtain ⟨hrk, hkeyHi, hkeyLo, -⟩ := cipherEffect_frame d s.core
  rw [withCore_core, commandEffect_cipherCommand]
  refine ⟨hkeyHi, hkeyLo, hrk, fun hk => ?_⟩
  rw [cipherEffect_noKey d s.core (keyValid_eq_false_iff.mp hk)]
  exact ⟨rfl, rfl, rfl⟩

/-- R905, R910 to R912: a cipher command reads only RK and DIN, which it leaves. -/
theorem cipherEffect_cipherEffect (d : Direction) (c : CoreState) :
    cipherEffect d (cipherEffect d c) = cipherEffect d c := by
  have hrk' := cipherEffect_rk d c
  cases hrk : c.rk with
  | none =>
    rw [cipherEffect_noKey d _ (hrk'.trans hrk), cipherEffect_noKey d c hrk]
    rfl
  | some rk =>
    rw [cipherEffect_key d _ rk (hrk'.trans hrk), cipherEffect_key d c rk hrk]
    rfl

/-- Settles O15. -/
theorem repeatedCipherCommandChangesNothing : Obligations.RepeatedCipherCommandChangesNothing := by
  intro s t i hi h
  obtain ⟨d, rfl⟩ := exists_eq_cipherCommand hi
  rw [exec_cipherCommand] at h
  cases h
  rw [exec_cipherCommand, withCore_core, cipherEffect_cipherEffect]
  rfl

end Sys2Proof.Proofs
end

section
/-! PROOF. The machine as a cipher (46_host_interface.md R1012, 70_reset_and_hazards.md R1210): a block's accesses are the façade's
block sequence, which under a schedule gives the transform, so the other direction's sequence gives the block back. -/

namespace Sys2Proof.Proofs

open Sys2Proof.Machine Sys2Proof.Safety Sys2Proof.Laws

/-- Settles O56: the accesses one after the other; the two reads return the halves of the joined result. -/
theorem facadeBlockIsFiveAccesses : Obligations.FacadeBlockIsFiveAccesses := by
  intro i b c as
  simp only [hostSteps_writeAccess, hostSteps_commandAccess, hostSteps_readAccess, hostSteps_nil, blockSequence,
    join64_eq_append, hi32_append, lo32_append]

/-- R1012: the first three accesses of a block leave the core that its sequence leaves. -/
theorem hostSteps_blockCommand (i : Instr) (b : Block) (c : CoreState) (as : List Answer) :
    hostSteps [writeAccess .dinHi (hi32 b), writeAccess .dinLo (lo32 b), commandAccess i] (c, as) =
      .ok ((blockSequence i b c).2, as) := by
  simp only [hostSteps_writeAccess, hostSteps_commandAccess, hostSteps_nil, blockSequence]

/-- R910, R911: with a key a block's sequence ends with KEY_VALID, DOUT_VALID and OK. -/
theorem blockSequence_status (d : Direction) (b : Block) (c : CoreState) (hk : c.keyValid = true) :
    (blockSequence (cipherCommand d) b c).2.keyValid = true ∧ (blockSequence (cipherCommand d) b c).2.doutValid = true ∧
      (blockSequence (cipherCommand d) b c).2.err = 0#4 := by
  have hk' : ({ c with dinHi := hi32 b, dinLo := lo32 b } : CoreState).keyValid = true := hk
  refine ⟨?_, ?_, ?_⟩
  · rw [CoreState.keyValid, blockSequence_rk]
    exact hk
  · rw [blockSequence_core, cipherEffect_doutValid, hk', Bool.true_or]
  · rw [blockSequence_core, cipherEffect_err, hk', if_pos rfl]

/-- R107: the STATUS word after a cipher command that succeeded. -/
theorem statusWord_of_success {c : CoreState} (hk : c.keyValid = true) (hv : c.doutValid = true) (he : c.err = 0#4) :
    c.statusWord = 0x00000003#32 := by
  rw [CoreState.statusWord, hk, hv, he]
  rfl

/-- Settles O54: the first three accesses are the sequence of construct, the next five the sequence of a block. -/
theorem bootOrderGivesTheCipher : Obligations.BootOrderGivesTheCipher := by
  intro s k b i d rest hi hp
  obtain rfl : i = cipherCommand d := by obtain ⟨rfl, rfl⟩ | ⟨rfl, rfl⟩ := hi <;> rfl
  have hrk := loadKeySequence_rk k s.core
  have hk : (loadKeySequence k s.core).keyValid = true := by rw [CoreState.keyValid, hrk, Option.isSome_some]
  obtain ⟨hkey, hvalid, herr⟩ := blockSequence_status d b (loadKeySequence k s.core) hk
  refine ⟨_, _, _, machineServesAccessesInOrder _ s rest (blockSequence (cipherCommand d) b (loadKeySequence k s.core)).2
    (.word 0x00000003#32 :: .word _ :: .word _ :: s.answers) hp ?_, rfl,
    blockSequence_block d b (loadKeySequence k s.core) _ hrk, rfl⟩
  rw [← statusWord_of_success hkey hvalid herr]
  simp only [hostSteps_writeAccess, hostSteps_commandAccess, hostSteps_readAccess, hostSteps_nil, loadKeySequence,
    blockSequence, readRegister]

/-- R904: the two cipher commands' directions, either way round, undo each other. -/
theorem exists_inverse_directions {i j : Instr}
    (hij : (i = .encrypt ∧ j = .decrypt) ∨ (i = .decrypt ∧ j = .encrypt)) :
    ∃ d d', i = cipherCommand d ∧ j = cipherCommand d' ∧
      ∀ (b : Block) (rk : Schedule), blockTransform (blockTransform b rk d) rk d' = b := by
  obtain ⟨rfl, rfl⟩ | ⟨rfl, rfl⟩ := hij
  · exact ⟨.enc, .dec, rfl, rfl, fun b rk => (blockTransformsInvertEachOther b rk).1⟩
  · exact ⟨.dec, .enc, rfl, rfl, fun b rk => (blockTransformsInvertEachOther b rk).2⟩

/-- R911's corner case: the other direction's sequence on the result of a cipher command ends with its operand in DOUT. -/
theorem resultBlock_inverse_blockSequence {d d' : Direction} {c : CoreState} {rk : Schedule} (hrk : c.rk = some rk)
    (hinv : ∀ b, blockTransform (blockTransform b rk d) rk d' = b) :
    (blockSequence (cipherCommand d') (cipherEffect d c).resultBlock (cipherEffect d c)).2.resultBlock = c.blockOperand :=
  calc (blockSequence (cipherCommand d') (cipherEffect d c).resultBlock (cipherEffect d c)).2.resultBlock
      = (blockSequence (cipherCommand d') (cipherEffect d c).resultBlock (cipherEffect d c)).1 := rfl
    _ = blockTransform (cipherEffect d c).resultBlock rk d' :=
        blockSequence_block d' _ _ rk ((cipherEffect_rk d c).trans hrk)
    _ = blockTransform (blockTransform c.blockOperand rk d) rk d' := by rw [resultBlock_cipherEffect d c rk hrk]
    _ = c.blockOperand := hinv _

/-- R401, R403: the registers that make the operand and the result are their halves. -/
theorem hi32_resultBlock (c : CoreState) : hi32 c.resultBlock = c.doutHi := hi32_append _ _
theorem lo32_resultBlock (c : CoreState) : lo32 c.resultBlock = c.doutLo := lo32_append _ _
theorem hi32_blockOperand (c : CoreState) : hi32 c.blockOperand = c.dinHi := hi32_append _ _
theorem lo32_blockOperand (c : CoreState) : lo32 c.blockOperand = c.dinLo := lo32_append _ _

/-- Settles O53: the three accesses leave the core as the other direction's block sequence of the first result. -/
theorem otherCommandRestoresTheBlock : Obligations.OtherCommandRestoresTheBlock := by
  intro s t i j hij hk h
  obtain ⟨d, d', rfl, rfl, hinv⟩ := exists_inverse_directions hij
  obtain ⟨rk, hrk⟩ := Option.isSome_iff_exists.mp hk
  rw [exec_cipherCommand] at h
  cases h
  have hk' : (cipherEffect d s.core).keyValid = true := by
    rw [CoreState.keyValid, cipherEffect_rk, hrk, Option.isSome_some]
  have hback := resultBlock_inverse_blockSequence hrk (hinv · rk)
  obtain ⟨-, hvalid, herr⟩ := blockSequence_status d' (cipherEffect d s.core).resultBlock _ hk'
  have hrun := hostSteps_blockCommand (cipherCommand d') (cipherEffect d s.core).resultBlock (cipherEffect d s.core)
    s.answers
  rw [hi32_resultBlock, lo32_resultBlock] at hrun
  refine ⟨_, machineServesAccessesInOrder [_, _, _] ((s.withCore (cipherEffect d s.core)).withPending _) [] _ _ rfl hrun,
    ?_, ?_, hvalid, herr⟩
  · rw [← hi32_resultBlock, hback, hi32_blockOperand]
  · rw [← lo32_resultBlock, hback, lo32_blockOperand]

end Sys2Proof.Proofs
end

section
/-! PROOF. The façade's checks and its core (46_host_interface.md R1011 to R1016): the lengths come first, and a call that
succeeds is the sequence of its chunks, whose output has the data's length; over host memory that output is what is written. -/

namespace Sys2Proof.Proofs

open Sys2Proof.Machine Sys2Proof.Laws

/-- Settles O55: the length checks are the first branch of each procedure. -/
theorem facadeChecksLengthsFirst : Obligations.FacadeChecksLengthsFirst :=
  ⟨fun _ _ h => if_pos h, fun _ _ h => ⟨if_pos h, if_pos h⟩, fun _ => ⟨rfl, rfl⟩⟩

/-- R1012, R1013: a call that succeeds was given whole blocks, and is the sequence of its chunks, none for empty data. -/
theorem facadeCipher_eq_ok {i : Instr} {data : ByteString} {c : CoreState} {out : ByteString × CoreState}
    (h : facadeCipher i data c = .ok out) :
    data.length % 8 = 0 ∧ out = chunkSequence i (data.length / 8) data c := by
  unfold facadeCipher at h
  split_ifs at h with hmod hempty
  · cases h
    rw [hempty]
    exact ⟨rfl, rfl⟩
  · cases h
    exact ⟨not_not.mp hmod, rfl⟩

/-- R1012: what every block's sequence keeps, a sequence of chunks keeps. -/
theorem chunkSequence_keeps {P : CoreState → Prop} {i : Instr} (hP : ∀ b c, P c → P (blockSequence i b c).2) (m : Nat)
    (data : ByteString) {c : CoreState} (hc : P c) : P (chunkSequence i m data c).2 := by
  induction m generalizing data c with
  | zero => exact hc
  | succ m ih => exact ih (data.drop 8) (hP _ c hc)

/-- R1012: m chunks give m blocks of output. -/
theorem length_chunkSequence (i : Instr) (m : Nat) (data : ByteString) (c : CoreState) :
    (chunkSequence i m data c).1.length = 8 * m := by
  induction m generalizing data c with
  | zero => rfl
  | succ m ih => rw [chunkSequence, List.length_append, length_u64ToBytes, ih, Nat.mul_succ, Nat.add_comm]

/-- R1014: the output has the data's length. -/
theorem length_of_facadeCipher {i : Instr} {data : ByteString} {c : CoreState} {out : ByteString × CoreState}
    (h : facadeCipher i data c = .ok out) : out.1.length = data.length := by
  obtain ⟨hmod, rfl⟩ := facadeCipher_eq_ok h
  rw [length_chunkSequence]
  omega

/-- R308: the sequence of construct is LOAD_KEY on the key written to the latches. -/
theorem loadKeySequence_eq (k : Block) (c : CoreState) :
    loadKeySequence k c = loadKeyEffect { c with keyHi := hi32 k, keyLo := lo32 k } := cmdStep_loadKey _

/-- R1016: a cipher call of either direction that succeeds under a key leaves OK and KEY_VALID. -/
theorem facadeCipher_status (d : Direction) {data out : ByteString} {c c' : CoreState} (hk : c.keyValid = true)
    (he : c.err = 0#4) (h : facadeCipher (cipherCommand d) data c = .ok (out, c')) : c'.err = 0#4 ∧ c'.keyValid = true := by
  have hcore : c' = (chunkSequence (cipherCommand d) (data.length / 8) data c).2 :=
    congrArg Prod.snd (facadeCipher_eq_ok h).2
  rw [hcore]
  refine chunkSequence_keeps (P := fun c => c.err = 0#4 ∧ c.keyValid = true) (fun b c hc => ?_) _ data ⟨he, hk⟩
  obtain ⟨hkey, -, herr⟩ := blockSequence_status d b c hc.2
  exact ⟨herr, hkey⟩

/-- Settles O57: LOAD_KEY leaves OK and KEY_VALID, and each block of a call keeps them. -/
theorem facadeNeverSeesAnErrorCode : Obligations.FacadeNeverSeesAnErrorCode := by
  refine ⟨fun key c c' h => ?_, fun data out c c' hk he h => ?_⟩
  · unfold facadeConstruct at h
    split_ifs at h
    cases h
    rw [loadKeySequence_eq]
    exact ⟨loadKeyEffect_err _, loadKeyEffect_keyValid _⟩
  · obtain h | h := h
    · exact facadeCipher_status .enc hk he h
    · exact facadeCipher_status .dec hk he h

theorem length_memReadBytes (m : HostMemory) (a n : Nat) : (memReadBytes m a n).length = n := by
  induction n generalizing a with
  | zero => rfl
  | succ n ih => rw [memReadBytes, List.length_cons, ih]

/-- R1010: a call over host memory that succeeds writes the façade's output. -/
theorem cipherInMemory_eq_ok {i : Instr} {m m' : HostMemory} {src len dst : Nat} {c c' : CoreState}
    (h : cipherInMemory i m src len dst c = .ok (m', c')) :
    ∃ out, facadeCipher i (memReadBytes m src len) c = .ok (out, c') ∧ m' = memWriteBytes m dst out := by
  unfold cipherInMemory at h
  split at h
  · cases h
  · rename_i out hout
    cases h
    exact ⟨out.1, hout, rfl⟩

/-- Settles O59: the output has the source's length, and host memory reads and keeps what it should around a write. -/
theorem memoryFacadeWritesOnlyItsOutput : Obligations.MemoryFacadeWritesOnlyItsOutput := by
  intro i m m' src len dst c c' hm h
  obtain ⟨out, hout, rfl⟩ := cipherInMemory_eq_ok h
  have hlen : out.length = len := (length_of_facadeCipher hout).trans (length_memReadBytes m src len)
  subst hlen
  exact ⟨⟨out, hout, memReadBytes_memWriteBytes m dst out hm⟩, memWriteBytes_wf m dst out hm,
    fun a ha => memRead_memWriteBytes_outside m dst a out hm ha⟩

end Sys2Proof.Proofs
end

section
/-! PROOF. The machine at reset and at rest (70_reset_and_hazards.md R1200, 60_exceptions.md R1125). -/

namespace Sys2Proof.Proofs

open Sys2Proof.Machine Sys2Proof.Laws

/-- Settles O1: the values are those written in the reset state, and STATUS is computed from them. -/
theorem resetValuesOfEveryRegister : Obligations.ResetValuesOfEveryRegister :=
  ⟨rfl, rfl, rfl, rfl, rfl, rfl, rfl, rfl, rfl, rfl, statusWord_reset⟩

/-- Settles O3. -/
theorem idleCoreKeepsItsState : Obligations.IdleCoreKeepsItsState := step_idle

end Sys2Proof.Proofs
end
